-- ==== Sys2Proof/Word.lean ====
section
/-! DEFINITION. The word types of the sf20b (00_scope.md R6, R7): 16-bit values, 8-bit bytes and 20-bit opcode words. -/

namespace Sys2Proof

/-- A 16-bit value: a register, a data address, an instruction address (R6, R8). -/
abbrev Word := BitVec 16

/-- An 8-bit byte of data memory (R84). -/
abbrev Byte := BitVec 8

/-- A 20-bit opcode word of instruction memory (R80, R121). -/
abbrev Opcode := BitVec 20

end Sys2Proof
end

