-- ==== Sys2Proof/Config.lean ====
section
/-! DEFINITION. What the implementation or the platform fixes (00_scope.md R6, 92_eei_decisions.md) and the free values
of the model. An opaque constant has no body: no proof can rest on what it is. -/

namespace Sys2Proof

/-- `ID_IMA`, the code of the implementation architecture (R53): a parameter, left free (log entry 3). -/
opaque Config.idIma : BitVec 4

/-- `ID_REV` less one: the revision is 1 upward, zero is illegal (R53); a parameter, left free (log entry 3). -/
opaque Config.idRevIndex : Fin 15

/-- `ID_REV`, a 4-bit value that is never zero (R53). -/
def Config.idRev : BitVec 4 := BitVec.ofNat 4 (Config.idRevIndex.val + 1)

/-- `RESET_IRN` of the reset that `State.reset` describes (R450). DESIGN CHOICE 0: the manual only says that in most
systems the instruction RAM starts at address zero; a `Reset(irn)` event names its own value (log entry 2). -/
def Config.resetIrn : BitVec 4 := 0#4

/-- The two candidate codes of `mlcu` in opcode bits [10:8] (R139). -/
inductive Config.MlcuFn3 where
  | fn010
  | fn100
deriving DecidableEq, Repr

/-- `MLCU_FN3`: unset, as the spec's parameter table gives it (92_eei_decisions.md D16; log entry 12). -/
def Config.mlcuFn3 : Option Config.MlcuFn3 := none

/-- What stands in a region of an address space (R94). -/
inductive Config.RegionKind where
  /-- Plain memory, without side effects. -/
  | memory
  /-- A platform device, whose behaviour the spec does not give (R85, R94, R100). -/
  | device
deriving DecidableEq, Repr

/-- A region of an address space: `size` addresses from `base` upward. -/
structure Config.Region where
  base : Nat
  size : Nat
  kind : Config.RegionKind
deriving DecidableEq, Repr

/-- A map of the populated regions and devices of an address space; what is in no region is unpopulated (R94, D10). -/
abbrev Config.Regions := List Config.Region

/-- `DMEM_REGIONS`, at the default of the spec's parameter table: all 65536 bytes are memory, no device (R94; log entry
15). -/
def Config.dmemRegions : Config.Regions := [⟨0, 65536, .memory⟩]

/-- `IMEM_REGIONS`, at the default of the spec's parameter table: all 65536 words are populated (R82, R94; log entry
15). -/
def Config.imemRegions : Config.Regions := [⟨0, 65536, .memory⟩]

/-- FREE VALUE: what a data byte that nothing has written holds, one value for each address (R94, R452: "any value";
log entry 4). -/
opaque Config.initialByte : Word → Byte

end Sys2Proof
end

