-- ==== Sys2Proof/Syntax.lean ====
section
/-! DEFINITION. The instructions of the sf20b as syntax: one constructor of `Instr` per row of spec/opcode_table.json
(30_encoding.md R138 to R140). Operands stand in assembly order, sources first (00_scope.md R10). -/

namespace Sys2Proof

/-- The number of a general purpose register Rn, as its 4-bit opcode field holds it (R31, R123). -/
abbrev RegNum := BitVec 4

/-- A 3-bit An field: it selects general purpose register 8 + a (R32). -/
abbrev AddrNum := BitVec 3

/-- The number of a special register SRn, as its 4-bit opcode field holds it (R46). -/
abbrev SRegNum := BitVec 4

/-- The size of a data memory operand: a byte or a short (R13, R84). -/
inductive Size where
  | byte
  | short
deriving DecidableEq, Repr

/-- The eight special registers (R46). -/
inductive SReg where
  | cc
  | cs
  | lc
  | u0
  | sa
  | ia
  | ta
  | id
deriving DecidableEq, Repr

/-- A member of a register selection RGS: a general purpose register or SA (R179). -/
inductive SelReg where
  | gpr (r : RegNum)
  | sa
deriving DecidableEq, Repr

/-- Why a 20-bit word is no instruction: the classes of reserved words of 30_encoding.md R142. -/
inductive ReservedClass where
  /-- bits [1:0] = `11` -/
  | low11
  /-- bits [1:0] = `00`, bit 19 = 1: no load or store mode -/
  | loadStoreMode
  /-- bits [1:0] = `01`, bits [19:18] = `11`: no flow instruction -/
  | flow
  /-- bits [3:0] = `1010`, bit 19 = 0: operation `0100` -/
  | arithmeticLogic
  /-- bits [3:0] = `1010`, bit 19 = 1: bit 8 is set -/
  | compareConstant
  /-- bits [3:0] = `1110`, bit 19 = 0: no multiply and no two-register operation -/
  | twoRegister
  /-- bits [3:0] = `1110`, bit 19 = 1: bit 8 is set -/
  | moveConstant
  /-- bits [3:0] = `0010`, bit 19 = 1: operation `010` or `100`, one of which is `mlcu` (R139) -/
  | constant8
  /-- bits [3:0] = `0010` or `0110`, bit 19 = 0: `btts` with a nonzero bits [7:4] -/
  | bitTest
deriving DecidableEq, Repr

/-- The sf20b instructions. `RegNum`, `AddrNum` and `SRegNum` operands are register fields; a constant is carried as its
coded bits in their natural order (R124 to R126); `rgs` carries the ten RGS flags of opcode bits [17:12] and [7:4], in
that order (R133); `sp` is the speculation flag S (R197). -/
inductive Instr where
  -- Arithmetic (43_arithmetic.md)
  /-- `subf Rs0,Rs1,Rd` (R287): `0000aaaabbbbdddd1010`. -/
  | subfReg (rs0 : RegNum) (rs1 : RegNum) (rd : RegNum)
  /-- `subf C8_U,Rb` (R287): `1cccccccc000dddd0010`. -/
  | subfImm (c8 : BitVec 8) (rb : RegNum)
  /-- `addt Rs0,Rs1,Rd` (R272): `0001aaaabbbbdddd1010`. -/
  | addtReg (rs0 : RegNum) (rs1 : RegNum) (rd : RegNum)
  /-- `addt C8_U,Rb` (R272): `1cccccccc001dddd0010`. -/
  | addtImm (c8 : BitVec 8) (rb : RegNum)
  /-- `subc Rs0,Rs1,Rd` (R286): `0010aaaabbbbdddd1010`. -/
  | subc (rs0 : RegNum) (rs1 : RegNum) (rd : RegNum)
  /-- `addc Rs0,Rs1,Rd` (R271): `0011aaaabbbbdddd1010`. -/
  | addc (rs0 : RegNum) (rs1 : RegNum) (rd : RegNum)
  /-- `adcf Rs,Rd` (R273): `01001001ssssdddd1110`. -/
  | adcf (rs : RegNum) (rd : RegNum)
  /-- `sbcf Rs,Rd` (R285): `01001000ssssdddd1110`. -/
  | sbcf (rs : RegNum) (rd : RegNum)
  /-- `comp Rs0,Rs1` (R279): `01011000aaaabbbb1110`. -/
  | compReg (rs0 : RegNum) (rs1 : RegNum)
  /-- `comp C10_S,Rs1` (R279): `1cccccccccc0bbbb1010`. -/
  | compImm (c10 : BitVec 10) (rs1 : RegNum)
  /-- `cmpc Rs0,Rs1` (R278): `01011001aaaabbbb1110`. -/
  | cmpc (rs0 : RegNum) (rs1 : RegNum)
  /-- `cpcf Rs` (R280): `01001010ssss00001110`. -/
  | cpcf (rs : RegNum)
  /-- `addh C16,Rb` (R274): `1cccccccc011dddd0010`. -/
  | addh (hi : BitVec 8) (rb : RegNum)
  /-- `negt Rs,Rd` (R283): `01000010ssssdddd1110`. -/
  | negt (rs : RegNum) (rd : RegNum)
  /-- `absl Rs,Rd` (R270): `01000011ssssdddd1110`. -/
  | absl (rs : RegNum) (rd : RegNum)
  /-- `clzr Rs,Rd` (R277): `01000101ssssdddd1110`. -/
  | clzr (rs : RegNum) (rd : RegNum)
  /-- `sxbt Rs,Rd` (R288): `01000110ssssdddd1110`. -/
  | sxbt (rs : RegNum) (rd : RegNum)
  /-- `sxsh Rs,Rd` (R289): `01000111ssssdddd1110`. -/
  | sxsh (rs : RegNum) (rd : RegNum)
  -- Logic (44_logic.md)
  /-- `andb Rs0,Rs1,Rd` (R300): `0101aaaabbbbdddd1010`. -/
  | andbReg (rs0 : RegNum) (rs1 : RegNum) (rd : RegNum)
  /-- `andb C8_U,Rb` (R300): `1cccccccc101dddd0010`. -/
  | andbImm (c8 : BitVec 8) (rb : RegNum)
  /-- `iorb Rs0,Rs1,Rd` (R302): `0110aaaabbbbdddd1010`. -/
  | iorbReg (rs0 : RegNum) (rs1 : RegNum) (rd : RegNum)
  /-- `iorb C8_U,Rb` (R302): `1cccccccc110dddd0010`. -/
  | iorbImm (c8 : BitVec 8) (rb : RegNum)
  /-- `xorb Rs0,Rs1,Rd` (R303): `0111aaaabbbbdddd1010`. -/
  | xorbReg (rs0 : RegNum) (rs1 : RegNum) (rd : RegNum)
  /-- `xorb C8_U,Rb` (R303): `1cccccccc111dddd0010`. -/
  | xorbImm (c8 : BitVec 8) (rb : RegNum)
  /-- `invt Rs,Rd` (R301): `01000100ssssdddd1110`. -/
  | invt (rs : RegNum) (rd : RegNum)
  -- Shift (45_shift.md)
  /-- `shlz Rs0,Rs1,Rd` (R311): `0000aaaabbbbdddd0010`. -/
  | shlzReg (rs0 : RegNum) (rs1 : RegNum) (rd : RegNum)
  /-- `shlz SHC4,Rs1,Rd` (R311): `0000kkkkbbbbdddd0110`. -/
  | shlzImm (shc : BitVec 4) (rs1 : RegNum) (rd : RegNum)
  /-- `shru Rs0,Rs1,Rd` (R313): `0001aaaabbbbdddd0010`. -/
  | shruReg (rs0 : RegNum) (rs1 : RegNum) (rd : RegNum)
  /-- `shru SHC4,Rs1,Rd` (R313): `0001kkkkbbbbdddd0110`. -/
  | shruImm (shc : BitVec 4) (rs1 : RegNum) (rd : RegNum)
  /-- `shlf Rs0,Rs1,Rd` (R310): `0010aaaabbbbdddd0010`. -/
  | shlfReg (rs0 : RegNum) (rs1 : RegNum) (rd : RegNum)
  /-- `shlf SHC4,Rs1,Rd` (R310): `0010kkkkbbbbdddd0110`. -/
  | shlfImm (shc : BitVec 4) (rs1 : RegNum) (rd : RegNum)
  /-- `shrs Rs0,Rs1,Rd` (R312): `0011aaaabbbbdddd0010`. -/
  | shrsReg (rs0 : RegNum) (rs1 : RegNum) (rd : RegNum)
  /-- `shrs SHC4,Rs1,Rd` (R312): `0011kkkkbbbbdddd0110`. -/
  | shrsImm (shc : BitVec 4) (rs1 : RegNum) (rd : RegNum)
  -- Bit (46_bit.md)
  /-- `btcl Rs0,Rs1,Rd` (R320): `0100aaaabbbbdddd0010`. -/
  | btclReg (rs0 : RegNum) (rs1 : RegNum) (rd : RegNum)
  /-- `btcl BTI4,Rs1,Rd` (R320): `0100kkkkbbbbdddd0110`. -/
  | btclImm (bti : BitVec 4) (rs1 : RegNum) (rd : RegNum)
  /-- `btst Rs0,Rs1,Rd` (R321): `0110aaaabbbbdddd0010`. -/
  | btstReg (rs0 : RegNum) (rs1 : RegNum) (rd : RegNum)
  /-- `btst BTI4,Rs1,Rd` (R321): `0110kkkkbbbbdddd0110`. -/
  | btstImm (bti : BitVec 4) (rs1 : RegNum) (rd : RegNum)
  /-- `bttg Rs0,Rs1,Rd` (R322): `0111aaaabbbbdddd0010`. -/
  | bttgReg (rs0 : RegNum) (rs1 : RegNum) (rd : RegNum)
  /-- `bttg BTI4,Rs1,Rd` (R322): `0111kkkkbbbbdddd0110`. -/
  | bttgImm (bti : BitVec 4) (rs1 : RegNum) (rd : RegNum)
  /-- `btts Rs0,Rs1` (R323): `0101aaaabbbb00000010`. -/
  | bttsReg (rs0 : RegNum) (rs1 : RegNum)
  /-- `btts BTI4,Rs1` (R323): `0101kkkkbbbb00000110`. -/
  | bttsImm (bti : BitVec 4) (rs1 : RegNum)
  -- Multiply (47_multiply.md)
  /-- `mult Rs0,Rs1,Rd` (R333): `0000aaaabbbbdddd1110`. -/
  | mult (rs0 : RegNum) (rs1 : RegNum) (rd : RegNum)
  /-- `mlhu Rs0,Rs1,Rd` (R332): `0010aaaabbbbdddd1110`. -/
  | mlhu (rs0 : RegNum) (rs1 : RegNum) (rd : RegNum)
  /-- `mlhs Rs0,Rs1,Rd` (R331): `0011aaaabbbbdddd1110`. -/
  | mlhs (rs0 : RegNum) (rs1 : RegNum) (rd : RegNum)
  /-- `mlcu C8_U,Rb` (R330): `1ccccccccfffdddd0010`. -/
  | mlcu (c8 : BitVec 8) (rb : RegNum)
  -- Move (42_move.md)
  /-- `move Rs,Rd` (R250): `01000000ssssdddd1110`. -/
  | moveReg (rs : RegNum) (rd : RegNum)
  /-- `move C10_S,Rd` (R250): `1cccccccccc0dddd0110`. -/
  | moveImm (c10 : BitVec 10) (rd : RegNum)
  /-- `mvsr C10_S,Rd` (R251): `1cccccccccc1dddd0110`. -/
  | mvsr (c10 : BitVec 10) (rd : RegNum)
  /-- `mfsr SRs,Rd` (R252): `01010010qqqqdddd1110`. -/
  | mfsr (srs : SRegNum) (rd : RegNum)
  /-- `mtsr Rs,SRd` (R253): `01010011sssspppp1110`. -/
  | mtsrReg (rs : RegNum) (srd : SRegNum)
  /-- `mtsr C10,SRd` (R253): `1cccccccccc0pppp1110`. -/
  | mtsrImm (c10 : BitVec 10) (srd : SRegNum)
  /-- `mfdp Rd` (R254): `010100000000dddd1110`. -/
  | mfdp (rd : RegNum)
  /-- `mtdp Rs` (R255): `01010001ssss00001110`. -/
  | mtdp (rs : RegNum)
  -- Load and store (41_load_store.md)
  /-- `ldbt DA11_S,Rd` (R210): `0eeeeeeeeeeerrrr0000`. -/
  | ldbtDirect (ea : BitVec 11) (rd : RegNum)
  /-- `ldbt (DO8_S,An),Rd` (R210): `0oooooooonnnrrrr0001`. -/
  | ldbtOffset (ofs : BitVec 8) (an : AddrNum) (rd : RegNum)
  /-- `ldbt (Rx,An),Rd` (R210): `1000xxxx0nnnrrrr0000`. -/
  | ldbtIndex (rx : RegNum) (an : AddrNum) (rd : RegNum)
  /-- `ldbt (An)+,Rd` (R210): `101000000nnnrrrr0000`. -/
  | ldbtPostInc (an : AddrNum) (rd : RegNum)
  /-- `ldbt -(An),Rd` (R210): `101000001nnnrrrr0000`. -/
  | ldbtPreDec (an : AddrNum) (rd : RegNum)
  /-- `ldbt (An)*,Rd` (R210): `101100000nnnrrrr0000`. -/
  | ldbtPostUpd (an : AddrNum) (rd : RegNum)
  /-- `ldbt (An)+,RGS` (R210): `11gggggg0nnngggg0000`. -/
  | ldbtPostIncSel (an : AddrNum) (rgs : BitVec 10)
  /-- `ldbt -(An),RGS` (R210): `11gggggg1nnngggg0000`. -/
  | ldbtPreDecSel (an : AddrNum) (rgs : BitVec 10)
  /-- `ldsh DA11_S,Rd` (R211): `0eeeeeeeeeeerrrr0100`. -/
  | ldshDirect (ea : BitVec 11) (rd : RegNum)
  /-- `ldsh (DO8_S,An),Rd` (R211): `0oooooooonnnrrrr0101`. -/
  | ldshOffset (ofs : BitVec 8) (an : AddrNum) (rd : RegNum)
  /-- `ldsh (Rx,An),Rd` (R211): `1000xxxx0nnnrrrr0100`. -/
  | ldshIndex (rx : RegNum) (an : AddrNum) (rd : RegNum)
  /-- `ldsh (An)+,Rd` (R211): `101000000nnnrrrr0100`. -/
  | ldshPostInc (an : AddrNum) (rd : RegNum)
  /-- `ldsh -(An),Rd` (R211): `101000001nnnrrrr0100`. -/
  | ldshPreDec (an : AddrNum) (rd : RegNum)
  /-- `ldsh (An)*,Rd` (R211): `101100000nnnrrrr0100`. -/
  | ldshPostUpd (an : AddrNum) (rd : RegNum)
  /-- `ldsh (An)+,RGS` (R211): `11gggggg0nnngggg0100`. -/
  | ldshPostIncSel (an : AddrNum) (rgs : BitVec 10)
  /-- `ldsh -(An),RGS` (R211): `11gggggg1nnngggg0100`. -/
  | ldshPreDecSel (an : AddrNum) (rgs : BitVec 10)
  /-- `stbt Rs,DA11_S` (R212): `0eeeeeeeeeeerrrr1000`. -/
  | stbtDirect (rs : RegNum) (ea : BitVec 11)
  /-- `stbt Rs,(DO8_S,An)` (R212): `0oooooooonnnrrrr1001`. -/
  | stbtOffset (rs : RegNum) (ofs : BitVec 8) (an : AddrNum)
  /-- `stbt Rs,(Rx,An)` (R212): `1000xxxx0nnnrrrr1000`. -/
  | stbtIndex (rs : RegNum) (rx : RegNum) (an : AddrNum)
  /-- `stbt Rs,(An)+` (R212): `101000000nnnrrrr1000`. -/
  | stbtPostInc (rs : RegNum) (an : AddrNum)
  /-- `stbt Rs,-(An)` (R212): `101000001nnnrrrr1000`. -/
  | stbtPreDec (rs : RegNum) (an : AddrNum)
  /-- `stbt Rs,(An)*` (R212): `101100000nnnrrrr1000`. -/
  | stbtPostUpd (rs : RegNum) (an : AddrNum)
  /-- `stbt RGS,(An)+` (R212): `11gggggg0nnngggg1000`. -/
  | stbtPostIncSel (rgs : BitVec 10) (an : AddrNum)
  /-- `stbt RGS,-(An)` (R212): `11gggggg1nnngggg1000`. -/
  | stbtPreDecSel (rgs : BitVec 10) (an : AddrNum)
  /-- `stsh Rs,DA11_S` (R213): `0eeeeeeeeeeerrrr1100`. -/
  | stshDirect (rs : RegNum) (ea : BitVec 11)
  /-- `stsh Rs,(DO8_S,An)` (R213): `0oooooooonnnrrrr1101`. -/
  | stshOffset (rs : RegNum) (ofs : BitVec 8) (an : AddrNum)
  /-- `stsh Rs,(Rx,An)` (R213): `1000xxxx0nnnrrrr1100`. -/
  | stshIndex (rs : RegNum) (rx : RegNum) (an : AddrNum)
  /-- `stsh Rs,(An)+` (R213): `101000000nnnrrrr1100`. -/
  | stshPostInc (rs : RegNum) (an : AddrNum)
  /-- `stsh Rs,-(An)` (R213): `101000001nnnrrrr1100`. -/
  | stshPreDec (rs : RegNum) (an : AddrNum)
  /-- `stsh Rs,(An)*` (R213): `101100000nnnrrrr1100`. -/
  | stshPostUpd (rs : RegNum) (an : AddrNum)
  /-- `stsh RGS,(An)+` (R213): `11gggggg0nnngggg1100`. -/
  | stshPostIncSel (rgs : BitVec 10) (an : AddrNum)
  /-- `stsh RGS,-(An)` (R213): `11gggggg1nnngggg1100`. -/
  | stshPreDecSel (rgs : BitVec 10) (an : AddrNum)
  -- Flow (48_flow.md)
  /-- `jump` (R340): `11000000000000000101`. -/
  | jump
  /-- `jpsr IA16` (R341): `10iiiiiiiiiiiiiiii01`. -/
  | jpsrAbs (ia : Word)
  /-- `jpsr` (R341): `11000000000000010101`. -/
  | jpsr
  /-- `rtsr` (R342): `11000000000000100101`. -/
  | rtsr
  /-- `rtir` (R343): `11000000000000110101`. -/
  | rtir
  /-- `bral IO14_S` (R344): `11jjjjjjjjjjjjjj0001`. -/
  | bral (io : BitVec 14)
  /-- `brlc IO10_S` (R345): `11jjjjjjjjjj01111101`. -/
  | brlc (io : BitVec 10)
  /-- `brnc IO10_S,S` (R354): `11jjjjjjjjjjS0001001`. -/
  | brnc (io : BitVec 10) (sp : Bool)
  /-- `brcr IO10_S,S` (R355): `11jjjjjjjjjjS0011001`. -/
  | brcr (io : BitVec 10) (sp : Bool)
  /-- `brno IO10_S,S` (R356): `11jjjjjjjjjjS0101001`. -/
  | brno (io : BitVec 10) (sp : Bool)
  /-- `brof IO10_S,S` (R357): `11jjjjjjjjjjS0111001`. -/
  | brof (io : BitVec 10) (sp : Bool)
  /-- `brnz IO10_S,S` (R358): `11jjjjjjjjjjS1001001`. -/
  | brnz (io : BitVec 10) (sp : Bool)
  /-- `brzr IO10_S,S` (R359): `11jjjjjjjjjjS1011001`. -/
  | brzr (io : BitVec 10) (sp : Bool)
  /-- `brps IO10_S,S` (R360): `11jjjjjjjjjjS1101001`. -/
  | brps (io : BitVec 10) (sp : Bool)
  /-- `brng IO10_S,S` (R361): `11jjjjjjjjjjS1111001`. -/
  | brng (io : BitVec 10) (sp : Bool)
  /-- `brls IO10_S,S` (R362): `11jjjjjjjjjjS0001101`. -/
  | brls (io : BitVec 10) (sp : Bool)
  /-- `brhi IO10_S,S` (R363): `11jjjjjjjjjjS0011101`. -/
  | brhi (io : BitVec 10) (sp : Bool)
  /-- `brlo IO10_S,S` (R364): `11jjjjjjjjjjS1101101`. -/
  | brlo (io : BitVec 10) (sp : Bool)
  /-- `brge IO10_S,S` (R365): `11jjjjjjjjjjS0111101`. -/
  | brge (io : BitVec 10) (sp : Bool)
  /-- `brle IO10_S,S` (R366): `11jjjjjjjjjjS1001101`. -/
  | brle (io : BitVec 10) (sp : Bool)
  /-- `brgt IO10_S,S` (R367): `11jjjjjjjjjjS1011101`. -/
  | brgt (io : BitVec 10) (sp : Bool)
  /-- `stie` (R350): `11000000000010000101`. -/
  | stie
  /-- `clie` (R351): `11000000000010010101`. -/
  | clie
  /-- `scie` (R352): `11000000000010110101`. -/
  | scie
  /-- `rsie` (R353): `11000000000010100101`. -/
  | rsie
  -- Debug (49_debug_misc.md)
  /-- `svpc` (R380): `11000000000001100101`. -/
  | svpc
  /-- `rspc` (R381): `11000000000001110101`. -/
  | rspc
  /-- `stop` (R382): `11000000000001000101`. -/
  | stop
deriving DecidableEq, Repr

end Sys2Proof
end

