-- ==== Sys2Proof/Decode.lean ====
section
/-! DEFINITION. Decoding of 20-bit opcode words, table driven (30_encoding.md R120 to R143), and after it the encoder. A
row of `rows` is a row of spec/opcode_table.json: its mask, its match value and the operands it reads. -/

namespace Sys2Proof

/-! ## Fields of an opcode word (R123 to R126, R133 to R136) -/

/-- The bits of `x`, placed from bit `lo` of an n-bit value upward. -/
def place {m : Nat} (n lo : Nat) (x : BitVec m) : BitVec n := x.setWidth n <<< lo

/-- Bits [15:12]: Rs0, Rx, SHC4 or BTI4 (R123). -/
def Opcode.fA (w : Opcode) : BitVec 4 := w.extractLsb' 12 4
/-- Bits [11:8]: a source register or a special register number (R123). -/
def Opcode.fB (w : Opcode) : BitVec 4 := w.extractLsb' 8 4
/-- Bits [7:4]: the destination, or the source of a store (R123). -/
def Opcode.fD (w : Opcode) : BitVec 4 := w.extractLsb' 4 4
/-- Bits [10:8]: An (R123). -/
def Opcode.fAn (w : Opcode) : AddrNum := w.extractLsb' 8 3
/-- An 8-bit constant: bits [12:11] above bits [18:13] (R124: C8_U, DO8_S; R126: the coded byte of C16). -/
def Opcode.fC8 (w : Opcode) : BitVec 8 :=
  place 8 6 (w.extractLsb' 11 2) ||| place 8 0 (w.extractLsb' 13 6)
/-- A 10-bit constant: bits [10:9], [12:11], [18:13] (R124). -/
def Opcode.fC10 (w : Opcode) : BitVec 10 :=
  place 10 8 (w.extractLsb' 9 2) ||| place 10 6 (w.extractLsb' 11 2) ||| place 10 0 (w.extractLsb' 13 6)
/-- DA11_S: bits [8], [10:9], [12:11], [18:13] (R124). -/
def Opcode.fDa11 (w : Opcode) : BitVec 11 :=
  place 11 10 (w.extractLsb' 8 1) ||| place 11 8 (w.extractLsb' 9 2) ||| place 11 6 (w.extractLsb' 11 2)
    ||| place 11 0 (w.extractLsb' 13 6)
/-- IA16: bits [17:2] (R134). -/
def Opcode.fIa16 (w : Opcode) : Word := w.extractLsb' 2 16
/-- IO10_S: bits [17:8] (R136). -/
def Opcode.fIo10 (w : Opcode) : BitVec 10 := w.extractLsb' 8 10
/-- IO14_S: bits [7:4] above bits [17:8] (R135). -/
def Opcode.fIo14 (w : Opcode) : BitVec 14 := place 14 10 (w.extractLsb' 4 4) ||| place 14 0 (w.extractLsb' 8 10)
/-- S, the speculation flag: bit [7] (R136, R197). -/
def Opcode.fS (w : Opcode) : Bool := w.getLsbD 7
/-- The ten RGS flags: bits [17:12] above bits [7:4], so that ascending flag number is ascending opcode bit (R133). -/
def Opcode.fRgs (w : Opcode) : BitVec 10 := place 10 4 (w.extractLsb' 12 6) ||| place 10 0 (w.extractLsb' 4 4)

/-! ## The opcode table -/

/-- A row of the opcode table: `w` is this instruction form exactly when `w &&& mask = bits`. -/
structure Row where
  mask : Opcode
  bits : Opcode
  build : Opcode → Instr

/-- A row, in the order the table prints it: mask, match, operands. -/
def row (mask bits : Opcode) (build : Opcode → Instr) : Row := ⟨mask, bits, build⟩

/-- `(w & mask) == match`. -/
def Row.covers (r : Row) (w : Opcode) : Bool := w &&& r.mask == r.bits

/-- The arithmetic rows (R138). -/
def arithmeticRows : List Row :=
  [ row 0xF000F#20 0x0000A#20 fun w => .subfReg w.fA w.fB w.fD,
    row 0x8070F#20 0x80002#20 fun w => .subfImm w.fC8 w.fD,
    row 0xF000F#20 0x1000A#20 fun w => .addtReg w.fA w.fB w.fD,
    row 0x8070F#20 0x80102#20 fun w => .addtImm w.fC8 w.fD,
    row 0xF000F#20 0x2000A#20 fun w => .subc w.fA w.fB w.fD,
    row 0xF000F#20 0x3000A#20 fun w => .addc w.fA w.fB w.fD,
    row 0xFF00F#20 0x4900E#20 fun w => .adcf w.fB w.fD,
    row 0xFF00F#20 0x4800E#20 fun w => .sbcf w.fB w.fD,
    row 0xFF00F#20 0x5800E#20 fun w => .compReg w.fB w.fD,
    row 0x8010F#20 0x8000A#20 fun w => .compImm w.fC10 w.fD,
    row 0xFF00F#20 0x5900E#20 fun w => .cmpc w.fB w.fD,
    row 0xFF0FF#20 0x4A00E#20 fun w => .cpcf w.fB,
    row 0x8070F#20 0x80302#20 fun w => .addh w.fC8 w.fD,
    row 0xFF00F#20 0x4200E#20 fun w => .negt w.fB w.fD,
    row 0xFF00F#20 0x4300E#20 fun w => .absl w.fB w.fD,
    row 0xFF00F#20 0x4500E#20 fun w => .clzr w.fB w.fD,
    row 0xFF00F#20 0x4600E#20 fun w => .sxbt w.fB w.fD,
    row 0xFF00F#20 0x4700E#20 fun w => .sxsh w.fB w.fD ]

/-- The logic, shift, bit and multiply rows but `mlcu` (R138). -/
def logicShiftRows : List Row :=
  [ row 0xF000F#20 0x5000A#20 fun w => .andbReg w.fA w.fB w.fD,
    row 0x8070F#20 0x80502#20 fun w => .andbImm w.fC8 w.fD,
    row 0xF000F#20 0x6000A#20 fun w => .iorbReg w.fA w.fB w.fD,
    row 0x8070F#20 0x80602#20 fun w => .iorbImm w.fC8 w.fD,
    row 0xF000F#20 0x7000A#20 fun w => .xorbReg w.fA w.fB w.fD,
    row 0x8070F#20 0x80702#20 fun w => .xorbImm w.fC8 w.fD,
    row 0xFF00F#20 0x4400E#20 fun w => .invt w.fB w.fD,
    row 0xF000F#20 0x00002#20 fun w => .shlzReg w.fA w.fB w.fD,
    row 0xF000F#20 0x00006#20 fun w => .shlzImm w.fA w.fB w.fD,
    row 0xF000F#20 0x10002#20 fun w => .shruReg w.fA w.fB w.fD,
    row 0xF000F#20 0x10006#20 fun w => .shruImm w.fA w.fB w.fD,
    row 0xF000F#20 0x20002#20 fun w => .shlfReg w.fA w.fB w.fD,
    row 0xF000F#20 0x20006#20 fun w => .shlfImm w.fA w.fB w.fD,
    row 0xF000F#20 0x30002#20 fun w => .shrsReg w.fA w.fB w.fD,
    row 0xF000F#20 0x30006#20 fun w => .shrsImm w.fA w.fB w.fD,
    row 0xF000F#20 0x40002#20 fun w => .btclReg w.fA w.fB w.fD,
    row 0xF000F#20 0x40006#20 fun w => .btclImm w.fA w.fB w.fD,
    row 0xF000F#20 0x60002#20 fun w => .btstReg w.fA w.fB w.fD,
    row 0xF000F#20 0x60006#20 fun w => .btstImm w.fA w.fB w.fD,
    row 0xF000F#20 0x70002#20 fun w => .bttgReg w.fA w.fB w.fD,
    row 0xF000F#20 0x70006#20 fun w => .bttgImm w.fA w.fB w.fD,
    row 0xF00FF#20 0x50002#20 fun w => .bttsReg w.fA w.fB,
    row 0xF00FF#20 0x50006#20 fun w => .bttsImm w.fA w.fB,
    row 0xF000F#20 0x0000E#20 fun w => .mult w.fA w.fB w.fD,
    row 0xF000F#20 0x2000E#20 fun w => .mlhu w.fA w.fB w.fD,
    row 0xF000F#20 0x3000E#20 fun w => .mlhs w.fA w.fB w.fD ]

/-- The move rows (R138). -/
def moveRows : List Row :=
  [ row 0xFF00F#20 0x4000E#20 fun w => .moveReg w.fB w.fD,
    row 0x8010F#20 0x80006#20 fun w => .moveImm w.fC10 w.fD,
    row 0x8010F#20 0x80106#20 fun w => .mvsr w.fC10 w.fD,
    row 0xFF00F#20 0x5200E#20 fun w => .mfsr w.fB w.fD,
    row 0xFF00F#20 0x5300E#20 fun w => .mtsrReg w.fB w.fD,
    row 0x8010F#20 0x8000E#20 fun w => .mtsrImm w.fC10 w.fD,
    row 0xFFF0F#20 0x5000E#20 fun w => .mfdp w.fD,
    row 0xFF0FF#20 0x5100E#20 fun w => .mtdp w.fB ]

/-- The load rows (R132, R140). -/
def loadRows : List Row :=
  [ row 0x8000F#20 0x00000#20 fun w => .ldbtDirect w.fDa11 w.fD,
    row 0x8000F#20 0x00001#20 fun w => .ldbtOffset w.fC8 w.fAn w.fD,
    row 0xF080F#20 0x80000#20 fun w => .ldbtIndex w.fA w.fAn w.fD,
    row 0xFF80F#20 0xA0000#20 fun w => .ldbtPostInc w.fAn w.fD,
    row 0xFF80F#20 0xA0800#20 fun w => .ldbtPreDec w.fAn w.fD,
    row 0xFF80F#20 0xB0000#20 fun w => .ldbtPostUpd w.fAn w.fD,
    row 0xC080F#20 0xC0000#20 fun w => .ldbtPostIncSel w.fAn w.fRgs,
    row 0xC080F#20 0xC0800#20 fun w => .ldbtPreDecSel w.fAn w.fRgs,
    row 0x8000F#20 0x00004#20 fun w => .ldshDirect w.fDa11 w.fD,
    row 0x8000F#20 0x00005#20 fun w => .ldshOffset w.fC8 w.fAn w.fD,
    row 0xF080F#20 0x80004#20 fun w => .ldshIndex w.fA w.fAn w.fD,
    row 0xFF80F#20 0xA0004#20 fun w => .ldshPostInc w.fAn w.fD,
    row 0xFF80F#20 0xA0804#20 fun w => .ldshPreDec w.fAn w.fD,
    row 0xFF80F#20 0xB0004#20 fun w => .ldshPostUpd w.fAn w.fD,
    row 0xC080F#20 0xC0004#20 fun w => .ldshPostIncSel w.fAn w.fRgs,
    row 0xC080F#20 0xC0804#20 fun w => .ldshPreDecSel w.fAn w.fRgs ]

/-- The store rows (R132, R140). -/
def storeRows : List Row :=
  [ row 0x8000F#20 0x00008#20 fun w => .stbtDirect w.fD w.fDa11,
    row 0x8000F#20 0x00009#20 fun w => .stbtOffset w.fD w.fC8 w.fAn,
    row 0xF080F#20 0x80008#20 fun w => .stbtIndex w.fD w.fA w.fAn,
    row 0xFF80F#20 0xA0008#20 fun w => .stbtPostInc w.fD w.fAn,
    row 0xFF80F#20 0xA0808#20 fun w => .stbtPreDec w.fD w.fAn,
    row 0xFF80F#20 0xB0008#20 fun w => .stbtPostUpd w.fD w.fAn,
    row 0xC080F#20 0xC0008#20 fun w => .stbtPostIncSel w.fRgs w.fAn,
    row 0xC080F#20 0xC0808#20 fun w => .stbtPreDecSel w.fRgs w.fAn,
    row 0x8000F#20 0x0000C#20 fun w => .stshDirect w.fD w.fDa11,
    row 0x8000F#20 0x0000D#20 fun w => .stshOffset w.fD w.fC8 w.fAn,
    row 0xF080F#20 0x8000C#20 fun w => .stshIndex w.fD w.fA w.fAn,
    row 0xFF80F#20 0xA000C#20 fun w => .stshPostInc w.fD w.fAn,
    row 0xFF80F#20 0xA080C#20 fun w => .stshPreDec w.fD w.fAn,
    row 0xFF80F#20 0xB000C#20 fun w => .stshPostUpd w.fD w.fAn,
    row 0xC080F#20 0xC000C#20 fun w => .stshPostIncSel w.fRgs w.fAn,
    row 0xC080F#20 0xC080C#20 fun w => .stshPreDecSel w.fRgs w.fAn ]

/-- The flow rows (R134 to R137, R140). -/
def flowRows : List Row :=
  [ row 0xFFFFF#20 0xC0005#20 fun _ => .jump,
    row 0xC0003#20 0x80001#20 fun w => .jpsrAbs w.fIa16,
    row 0xFFFFF#20 0xC0015#20 fun _ => .jpsr,
    row 0xFFFFF#20 0xC0025#20 fun _ => .rtsr,
    row 0xFFFFF#20 0xC0035#20 fun _ => .rtir,
    row 0xC000F#20 0xC0001#20 fun w => .bral w.fIo14,
    row 0xC00FF#20 0xC007D#20 fun w => .brlc w.fIo10,
    row 0xC007F#20 0xC0009#20 fun w => .brnc w.fIo10 w.fS,
    row 0xC007F#20 0xC0019#20 fun w => .brcr w.fIo10 w.fS,
    row 0xC007F#20 0xC0029#20 fun w => .brno w.fIo10 w.fS,
    row 0xC007F#20 0xC0039#20 fun w => .brof w.fIo10 w.fS,
    row 0xC007F#20 0xC0049#20 fun w => .brnz w.fIo10 w.fS,
    row 0xC007F#20 0xC0059#20 fun w => .brzr w.fIo10 w.fS,
    row 0xC007F#20 0xC0069#20 fun w => .brps w.fIo10 w.fS,
    row 0xC007F#20 0xC0079#20 fun w => .brng w.fIo10 w.fS,
    row 0xC007F#20 0xC000D#20 fun w => .brls w.fIo10 w.fS,
    row 0xC007F#20 0xC001D#20 fun w => .brhi w.fIo10 w.fS,
    row 0xC007F#20 0xC006D#20 fun w => .brlo w.fIo10 w.fS,
    row 0xC007F#20 0xC003D#20 fun w => .brge w.fIo10 w.fS,
    row 0xC007F#20 0xC004D#20 fun w => .brle w.fIo10 w.fS,
    row 0xC007F#20 0xC005D#20 fun w => .brgt w.fIo10 w.fS,
    row 0xFFFFF#20 0xC0085#20 fun _ => .stie,
    row 0xFFFFF#20 0xC0095#20 fun _ => .clie,
    row 0xFFFFF#20 0xC00B5#20 fun _ => .scie,
    row 0xFFFFF#20 0xC00A5#20 fun _ => .rsie ]

/-- The debug rows (R384). -/
def debugRows : List Row :=
  [ row 0xFFFFF#20 0xC0065#20 fun _ => .svpc,
    row 0xFFFFF#20 0xC0075#20 fun _ => .rspc,
    row 0xFFFFF#20 0xC0045#20 fun _ => .stop ]

/-- The code of `mlcu` in bits [10:8] for a value of the parameter `MLCU_FN3` (R139). -/
def Config.MlcuFn3.code : Config.MlcuFn3 → BitVec 3
  | .fn010 => 0b010#3
  | .fn100 => 0b100#3

/-- The row of `mlcu C8_U,Rb` (R330) once its code is given: format I8 (R130, R139). -/
def mlcuRow (c : Config.MlcuFn3) : Row :=
  row 0x8070F#20 (0x80002#20 ||| place 20 8 c.code) fun w => .mlcu w.fC8 w.fD

/-- The rows that have an encoding in the source: the whole table but `mlcu`. -/
def codedRows : List Row :=
  arithmeticRows ++ logicShiftRows ++ moveRows ++ loadRows ++ storeRows ++ flowRows ++ debugRows

/-- The opcode table for a value of the parameter `MLCU_FN3` (unset: no row for `mlcu`, R139). -/
def rows (mlcuFn3 : Option Config.MlcuFn3) : List Row :=
  codedRows ++ (mlcuFn3.map mlcuRow).toList

/-- The class of R142 that a word matched by no row belongs to. -/
def reservedClass (w : Opcode) : ReservedClass :=
  if w.extractLsb' 0 2 = 0b11#2 then .low11
  else if w.extractLsb' 0 2 = 0b00#2 then .loadStoreMode
  else if w.extractLsb' 0 2 = 0b01#2 then .flow
  else if w.extractLsb' 0 4 = 0b1010#4 then (if w.getLsbD 19 then .compareConstant else .arithmeticLogic)
  else if w.extractLsb' 0 4 = 0b1110#4 then (if w.getLsbD 19 then .moveConstant else .twoRegister)
  else if w.getLsbD 19 then .constant8
  else .bitTest

/-- Decoding with the parameter `MLCU_FN3` as an argument: the instruction of the one row that matches, or the class of
reserved word (R142, R143). -/
def decodeWith (mlcuFn3 : Option Config.MlcuFn3) (w : Opcode) : Except ReservedClass Instr :=
  match (rows mlcuFn3).find? (·.covers w) with
  | some r => .ok (r.build w)
  | none => .error (reservedClass w)

/-- The decoder of this model: total on 20-bit words, rejecting reserved words by name. -/
def decode (w : Opcode) : Except ReservedClass Instr := decodeWith Config.mlcuFn3 w

/-- The instruction the decoder reads from the 20-bit word `w`, bit 0 least significant: an sf20b instruction is exactly
one word (R121), so a number that needs more than 20 bits is none. -/
def decodeTableWord (_nbits w : Nat) : Option Instr :=
  if w < 2 ^ 20 then (decode (BitVec.ofNat 20 w)).toOption else none

/-! ## The encoder, one function per format (R127 to R137) -/

/-- Formats R3 and R3I: `oooo aaaa bbbb dddd ffff` (R127, R128). -/
def encR3 (o a b d f : BitVec 4) : Opcode :=
  place 20 16 o ||| place 20 12 a ||| place 20 8 b ||| place 20 4 d ||| place 20 0 f

/-- Format R2: `oooo oooo ssss dddd 1110` (R129). -/
def encR2 (o : BitVec 8) (s d : BitVec 4) : Opcode :=
  place 20 12 o ||| place 20 8 s ||| place 20 4 d ||| place 20 0 0b1110#4

/-- An 8-bit constant in opcode bits [18:11], scrambled (R124, R126). -/
def placeC8 (c : BitVec 8) : Opcode := place 20 13 (c.extractLsb' 0 6) ||| place 20 11 (c.extractLsb' 6 2)

/-- A 10-bit constant in opcode bits [18:9], scrambled (R124). -/
def placeC10 (c : BitVec 10) : Opcode :=
  place 20 13 (c.extractLsb' 0 6) ||| place 20 11 (c.extractLsb' 6 2) ||| place 20 9 (c.extractLsb' 8 2)

/-- An 11-bit constant in opcode bits [18:8], scrambled (R124). -/
def placeC11 (c : BitVec 11) : Opcode :=
  place 20 13 (c.extractLsb' 0 6) ||| place 20 11 (c.extractLsb' 6 2) ||| place 20 9 (c.extractLsb' 8 2)
    ||| place 20 8 (c.extractLsb' 10 1)

/-- Format I8: `1 cccccccc fff dddd 0010` (R130). -/
def encI8 (c : BitVec 8) (f : BitVec 3) (d : BitVec 4) : Opcode :=
  place 20 19 1#1 ||| placeC8 c ||| place 20 8 f ||| place 20 4 d ||| place 20 0 0b0010#4

/-- Format I10: `1 cccccccccc e rrrr ffff` (R131). -/
def encI10 (c : BitVec 10) (e : BitVec 1) (r f : BitVec 4) : Opcode :=
  place 20 19 1#1 ||| placeC10 c ||| place 20 8 e ||| place 20 4 r ||| place 20 0 f

/-- Format MD: `0 eeeeeeeeeee rrrr LS 00` (R132). -/
def encMD (c : BitVec 11) (r f : BitVec 4) : Opcode := placeC11 c ||| place 20 4 r ||| place 20 0 f

/-- Format MO: `0 oooooooo nnn rrrr LS 01` (R132). -/
def encMO (c : BitVec 8) (n : AddrNum) (r f : BitVec 4) : Opcode :=
  placeC8 c ||| place 20 8 n ||| place 20 4 r ||| place 20 0 f

/-- Formats MX and MA: `oooo xxxx b nnn rrrr LS 00` (R132; in MA `xxxx` is `0000`). -/
def encMA (o x : BitVec 4) (b : BitVec 1) (n : AddrNum) (r f : BitVec 4) : Opcode :=
  place 20 16 o ||| place 20 12 x ||| place 20 11 b ||| place 20 8 n ||| place 20 4 r ||| place 20 0 f

/-- Format MG: `11 gggggg b nnn gggg LS 00` (R132, R133). -/
def encMG (b : BitVec 1) (n : AddrNum) (g : BitVec 10) (f : BitVec 4) : Opcode :=
  place 20 18 0b11#2 ||| place 20 12 (g.extractLsb' 4 6) ||| place 20 11 b ||| place 20 8 n
    ||| place 20 4 (g.extractLsb' 0 4) ||| place 20 0 f

/-- Format J: `10 iiiiiiiiiiiiiiii 01` (R134). -/
def encJ (i : Word) : Opcode := place 20 18 0b10#2 ||| place 20 2 i ||| place 20 0 0b01#2

/-- Format B14: `11 jjjjjjjjjj hhhh 0001` (R135). -/
def encB14 (j : BitVec 14) : Opcode :=
  place 20 18 0b11#2 ||| place 20 8 (j.extractLsb' 0 10) ||| place 20 4 (j.extractLsb' 10 4) ||| place 20 0 0b0001#4

/-- Format B10: `11 jjjjjjjjjj S ccc 1 g 01` (R136), `f` the low four bits `1 g 01`. -/
def encB10 (j : BitVec 10) (s : Bool) (c : BitVec 3) (f : BitVec 4) : Opcode :=
  place 20 18 0b11#2 ||| place 20 8 j ||| place 20 7 (BitVec.ofBool s) ||| place 20 4 c ||| place 20 0 f

/-- Format IMP: `11 0000000000 ssss 0101` (R137). -/
def encIMP (s : BitVec 4) : Opcode := place 20 18 0b11#2 ||| place 20 4 s ||| place 20 0 0b0101#4

/-- The word of an instruction for a value of the parameter `MLCU_FN3`: only `mlcu` can have none (R139). -/
def encodeWith (mlcuFn3 : Option Config.MlcuFn3) : Instr → Option Opcode
  | .subfReg rs0 rs1 rd => some (encR3 0b0000#4 rs0 rs1 rd 0b1010#4)
  | .subfImm c8 rb => some (encI8 c8 0b000#3 rb)
  | .addtReg rs0 rs1 rd => some (encR3 0b0001#4 rs0 rs1 rd 0b1010#4)
  | .addtImm c8 rb => some (encI8 c8 0b001#3 rb)
  | .subc rs0 rs1 rd => some (encR3 0b0010#4 rs0 rs1 rd 0b1010#4)
  | .addc rs0 rs1 rd => some (encR3 0b0011#4 rs0 rs1 rd 0b1010#4)
  | .adcf rs rd => some (encR2 0b01001001#8 rs rd)
  | .sbcf rs rd => some (encR2 0b01001000#8 rs rd)
  | .compReg rs0 rs1 => some (encR2 0b01011000#8 rs0 rs1)
  | .compImm c10 rs1 => some (encI10 c10 0b0#1 rs1 0b1010#4)
  | .cmpc rs0 rs1 => some (encR2 0b01011001#8 rs0 rs1)
  | .cpcf rs => some (encR2 0b01001010#8 rs 0b0000#4)
  | .addh hi rb => some (encI8 hi 0b011#3 rb)
  | .negt rs rd => some (encR2 0b01000010#8 rs rd)
  | .absl rs rd => some (encR2 0b01000011#8 rs rd)
  | .clzr rs rd => some (encR2 0b01000101#8 rs rd)
  | .sxbt rs rd => some (encR2 0b01000110#8 rs rd)
  | .sxsh rs rd => some (encR2 0b01000111#8 rs rd)
  | .andbReg rs0 rs1 rd => some (encR3 0b0101#4 rs0 rs1 rd 0b1010#4)
  | .andbImm c8 rb => some (encI8 c8 0b101#3 rb)
  | .iorbReg rs0 rs1 rd => some (encR3 0b0110#4 rs0 rs1 rd 0b1010#4)
  | .iorbImm c8 rb => some (encI8 c8 0b110#3 rb)
  | .xorbReg rs0 rs1 rd => some (encR3 0b0111#4 rs0 rs1 rd 0b1010#4)
  | .xorbImm c8 rb => some (encI8 c8 0b111#3 rb)
  | .invt rs rd => some (encR2 0b01000100#8 rs rd)
  | .shlzReg rs0 rs1 rd => some (encR3 0b0000#4 rs0 rs1 rd 0b0010#4)
  | .shlzImm shc rs1 rd => some (encR3 0b0000#4 shc rs1 rd 0b0110#4)
  | .shruReg rs0 rs1 rd => some (encR3 0b0001#4 rs0 rs1 rd 0b0010#4)
  | .shruImm shc rs1 rd => some (encR3 0b0001#4 shc rs1 rd 0b0110#4)
  | .shlfReg rs0 rs1 rd => some (encR3 0b0010#4 rs0 rs1 rd 0b0010#4)
  | .shlfImm shc rs1 rd => some (encR3 0b0010#4 shc rs1 rd 0b0110#4)
  | .shrsReg rs0 rs1 rd => some (encR3 0b0011#4 rs0 rs1 rd 0b0010#4)
  | .shrsImm shc rs1 rd => some (encR3 0b0011#4 shc rs1 rd 0b0110#4)
  | .btclReg rs0 rs1 rd => some (encR3 0b0100#4 rs0 rs1 rd 0b0010#4)
  | .btclImm bti rs1 rd => some (encR3 0b0100#4 bti rs1 rd 0b0110#4)
  | .btstReg rs0 rs1 rd => some (encR3 0b0110#4 rs0 rs1 rd 0b0010#4)
  | .btstImm bti rs1 rd => some (encR3 0b0110#4 bti rs1 rd 0b0110#4)
  | .bttgReg rs0 rs1 rd => some (encR3 0b0111#4 rs0 rs1 rd 0b0010#4)
  | .bttgImm bti rs1 rd => some (encR3 0b0111#4 bti rs1 rd 0b0110#4)
  | .bttsReg rs0 rs1 => some (encR3 0b0101#4 rs0 rs1 0b0000#4 0b0010#4)
  | .bttsImm bti rs1 => some (encR3 0b0101#4 bti rs1 0b0000#4 0b0110#4)
  | .mult rs0 rs1 rd => some (encR3 0b0000#4 rs0 rs1 rd 0b1110#4)
  | .mlhu rs0 rs1 rd => some (encR3 0b0010#4 rs0 rs1 rd 0b1110#4)
  | .mlhs rs0 rs1 rd => some (encR3 0b0011#4 rs0 rs1 rd 0b1110#4)
  | .mlcu c8 rb => mlcuFn3.map fun c => encI8 c8 c.code rb
  | .moveReg rs rd => some (encR2 0b01000000#8 rs rd)
  | .moveImm c10 rd => some (encI10 c10 0b0#1 rd 0b0110#4)
  | .mvsr c10 rd => some (encI10 c10 0b1#1 rd 0b0110#4)
  | .mfsr srs rd => some (encR2 0b01010010#8 srs rd)
  | .mtsrReg rs srd => some (encR2 0b01010011#8 rs srd)
  | .mtsrImm c10 srd => some (encI10 c10 0b0#1 srd 0b1110#4)
  | .mfdp rd => some (encR2 0b01010000#8 0b0000#4 rd)
  | .mtdp rs => some (encR2 0b01010001#8 rs 0b0000#4)
  | .ldbtDirect ea rd => some (encMD ea rd 0b0000#4)
  | .ldbtOffset ofs an rd => some (encMO ofs an rd 0b0001#4)
  | .ldbtIndex rx an rd => some (encMA 0b1000#4 rx 0b0#1 an rd 0b0000#4)
  | .ldbtPostInc an rd => some (encMA 0b1010#4 0b0000#4 0b0#1 an rd 0b0000#4)
  | .ldbtPreDec an rd => some (encMA 0b1010#4 0b0000#4 0b1#1 an rd 0b0000#4)
  | .ldbtPostUpd an rd => some (encMA 0b1011#4 0b0000#4 0b0#1 an rd 0b0000#4)
  | .ldbtPostIncSel an rgs => some (encMG 0b0#1 an rgs 0b0000#4)
  | .ldbtPreDecSel an rgs => some (encMG 0b1#1 an rgs 0b0000#4)
  | .ldshDirect ea rd => some (encMD ea rd 0b0100#4)
  | .ldshOffset ofs an rd => some (encMO ofs an rd 0b0101#4)
  | .ldshIndex rx an rd => some (encMA 0b1000#4 rx 0b0#1 an rd 0b0100#4)
  | .ldshPostInc an rd => some (encMA 0b1010#4 0b0000#4 0b0#1 an rd 0b0100#4)
  | .ldshPreDec an rd => some (encMA 0b1010#4 0b0000#4 0b1#1 an rd 0b0100#4)
  | .ldshPostUpd an rd => some (encMA 0b1011#4 0b0000#4 0b0#1 an rd 0b0100#4)
  | .ldshPostIncSel an rgs => some (encMG 0b0#1 an rgs 0b0100#4)
  | .ldshPreDecSel an rgs => some (encMG 0b1#1 an rgs 0b0100#4)
  | .stbtDirect rs ea => some (encMD ea rs 0b1000#4)
  | .stbtOffset rs ofs an => some (encMO ofs an rs 0b1001#4)
  | .stbtIndex rs rx an => some (encMA 0b1000#4 rx 0b0#1 an rs 0b1000#4)
  | .stbtPostInc rs an => some (encMA 0b1010#4 0b0000#4 0b0#1 an rs 0b1000#4)
  | .stbtPreDec rs an => some (encMA 0b1010#4 0b0000#4 0b1#1 an rs 0b1000#4)
  | .stbtPostUpd rs an => some (encMA 0b1011#4 0b0000#4 0b0#1 an rs 0b1000#4)
  | .stbtPostIncSel rgs an => some (encMG 0b0#1 an rgs 0b1000#4)
  | .stbtPreDecSel rgs an => some (encMG 0b1#1 an rgs 0b1000#4)
  | .stshDirect rs ea => some (encMD ea rs 0b1100#4)
  | .stshOffset rs ofs an => some (encMO ofs an rs 0b1101#4)
  | .stshIndex rs rx an => some (encMA 0b1000#4 rx 0b0#1 an rs 0b1100#4)
  | .stshPostInc rs an => some (encMA 0b1010#4 0b0000#4 0b0#1 an rs 0b1100#4)
  | .stshPreDec rs an => some (encMA 0b1010#4 0b0000#4 0b1#1 an rs 0b1100#4)
  | .stshPostUpd rs an => some (encMA 0b1011#4 0b0000#4 0b0#1 an rs 0b1100#4)
  | .stshPostIncSel rgs an => some (encMG 0b0#1 an rgs 0b1100#4)
  | .stshPreDecSel rgs an => some (encMG 0b1#1 an rgs 0b1100#4)
  | .jump => some (encIMP 0b0000#4)
  | .jpsrAbs ia => some (encJ ia)
  | .jpsr => some (encIMP 0b0001#4)
  | .rtsr => some (encIMP 0b0010#4)
  | .rtir => some (encIMP 0b0011#4)
  | .bral io => some (encB14 io)
  | .brlc io => some (encB10 io false 0b111#3 0b1101#4)
  | .brnc io sp => some (encB10 io sp 0b000#3 0b1001#4)
  | .brcr io sp => some (encB10 io sp 0b001#3 0b1001#4)
  | .brno io sp => some (encB10 io sp 0b010#3 0b1001#4)
  | .brof io sp => some (encB10 io sp 0b011#3 0b1001#4)
  | .brnz io sp => some (encB10 io sp 0b100#3 0b1001#4)
  | .brzr io sp => some (encB10 io sp 0b101#3 0b1001#4)
  | .brps io sp => some (encB10 io sp 0b110#3 0b1001#4)
  | .brng io sp => some (encB10 io sp 0b111#3 0b1001#4)
  | .brls io sp => some (encB10 io sp 0b000#3 0b1101#4)
  | .brhi io sp => some (encB10 io sp 0b001#3 0b1101#4)
  | .brlo io sp => some (encB10 io sp 0b110#3 0b1101#4)
  | .brge io sp => some (encB10 io sp 0b011#3 0b1101#4)
  | .brle io sp => some (encB10 io sp 0b100#3 0b1101#4)
  | .brgt io sp => some (encB10 io sp 0b101#3 0b1101#4)
  | .stie => some (encIMP 0b1000#4)
  | .clie => some (encIMP 0b1001#4)
  | .scie => some (encIMP 0b1011#4)
  | .rsie => some (encIMP 0b1010#4)
  | .svpc => some (encIMP 0b0110#4)
  | .rspc => some (encIMP 0b0111#4)
  | .stop => some (encIMP 0b0100#4)

/-- The encoder of this model. -/
def encode (i : Instr) : Option Opcode := encodeWith Config.mlcuFn3 i

end Sys2Proof
end

