-- ==== Sys2Proof/Machine/State.lean ====
section
/-! DEFINITION. The state of the machine (10_state.md R30 to R59), the reasons it can stop, and the state after reset
(70_reset_and_hazards.md R450, R451). -/

namespace Sys2Proof.Machine

/-- The four condition code flags: CC, and its shadow CCS (R36, R55). -/
structure Flags where
  n : Bool
  z : Bool
  o : Bool
  c : Bool
deriving DecidableEq, Repr

/-- The run state; the output `STPD` is this state made visible (R57, R420). -/
inductive RunState where
  | running
  | stopped
deriving DecidableEq, Repr

/-- What the core shows the world outside (R430): the acknowledge of an interrupt, a value driven on `DBO`, and each
data memory access with its size, its full 16-bit address (bit 0 included, R90) and the value read or written. -/
inductive Output where
  | iack (k : BitVec 4)
  | dbo (v : Word)
  | read (size : Size) (address : Word) (value : Word)
  | write (size : Size) (address : Word) (value : Word)
deriving DecidableEq, Repr

/-- The events through which the world outside acts on the core (R430). -/
inductive HostEvent where
  /-- `Reset(irn)`; `strq`: `STRQ` is asserted when reset is released (R450, R451, D9). -/
  | reset (irn : BitVec 4) (strq : Bool)
  /-- `Step`: one instruction. -/
  | step
  /-- `Interrupt(k)`: `IRQ` asserted with `IRN` = k at this instruction boundary. -/
  | interrupt (k : BitVec 4)
  /-- `StopRequest`: `STRQ` asserted. -/
  | stopRequest
  /-- `Inject(w)` or `Inject(w, data)`: `DBI` = w with `INJI`, then `DBI` = data while the word executes (R422, R424). -/
  | inject (w : Opcode) (data : Option (BitVec 20))
  /-- `Resume`: `STRQ` released while stopped (R425). -/
  | resume
  /-- The platform or the debug module writes one word of instruction memory (R83, R99). -/
  | loadInstr (a : Word) (w : Opcode)
  /-- The platform or the debug module writes one byte of data memory (R100, R430). -/
  | loadData (a : Word) (b : Byte)
  /-- The debug module drives a word on `DBI`, or stops driving it (R59, R429). -/
  | driveDbi (v : Option (BitVec 20))
deriving DecidableEq, Repr

/-- The state of one sf20b core with its two memories. The fields from `dbi` on are the MODEL's own: what the host
offers and what the core has shown (log entries 7, 11, 27). -/
structure State where
  /-- R0 to RF (R31). -/
  regs : Vector Word 16
  /-- The program counter (R34). -/
  pc : Word
  /-- CC, special register 0 (R36). -/
  cc : Flags
  /-- CS.IVTP, bits 15:5 of special register 1 (R42). -/
  ivtp : BitVec 11
  /-- CS.IS, bit 2 (R45). -/
  csIs : Bool
  /-- CS.IE, bit 1 (R44). -/
  csIe : Bool
  /-- CS.IR, bit 0 (R43). -/
  csIr : Bool
  /-- LC, special register 2 (R48). -/
  lc : BitVec 10
  /-- U0, special register 4 (R49). -/
  u0 : BitVec 10
  /-- SA, special register 12 (R50). -/
  sa : Word
  /-- IA, special register 13 (R51). -/
  ia : Word
  /-- TA, special register 14 (R52). -/
  ta : Word
  /-- The hidden register CCS (R55). -/
  ccs : Flags
  /-- Running or stopped (R57). -/
  run : RunState
  /-- The debug output latch `DBO`: the value last driven (R30, R58). -/
  dbo : Word
  /-- Data memory: the bytes written so far, by rising address; an unlisted address holds no known value (R84, R94). -/
  dmem : List Host.Cell
  /-- Instruction memory: the words loaded so far, by rising address; an unlisted address holds no word (R80, R82). -/
  imem : List (Nat × Opcode)
  /-- MODEL: what the debug module drives on `DBI[19:0]`, if anything (R59). -/
  dbi : Option (BitVec 20)
  /-- MODEL: the host events still to come, the next one first; with none left the core just steps (R430). -/
  inputs : List HostEvent
  /-- MODEL: what the core has shown so far, the latest first (R430). -/
  outputs : List Output
deriving DecidableEq, Repr

/-- Why the machine stops without an instruction of the program being at fault. -/
inductive Fault where
  /-- Raised by the fetch: no word was ever loaded at this instruction address, so there is nothing to execute (R82,
  D10). Safe: the hardware would execute whatever the cell holds. -/
  | noInstruction (a : Word)
deriving DecidableEq, Repr

/-- Why the model gives no successor state (treatment `refuse` of 93_implementation_defined.md). Each is safe: the
hardware does something the spec does not give. -/
inductive Refusal where
  /-- Raised by `exec`'s arm of an instruction that has no meaning yet. -/
  | notModelled (mnemonic : String)
  /-- Raised by the fetch and by an injection: the word is reserved (R143, D3). -/
  | reservedEncoding (c : ReservedClass)
  /-- Raised by `mfsr` and `mtsr`: the number names no special register (R46, D4). -/
  | reservedSpecialRegister (n : SRegNum)
  /-- Raised by loads and stores: the transferred register is the updated address register, or An is in its own RGS
  (R189, D13). -/
  | addressRegisterOverlap
  /-- Raised by RGS loads and stores: no register is selected (R190, D14). -/
  | emptySelection
  /-- Raised by `rtir` with CS.IR = 0, whose behaviour "is not defined" (R343, D12). -/
  | returnOutsideInterrupt
  /-- Raised by `mfdp` and `rspc`, fetched or injected, when the host supplies nothing on `DBI` (R254, R381, R429,
  D19). -/
  | debugInputUndriven
  /-- Raised by the injection of a jump, a branch, a return or `stop` (R429, D20). -/
  | injectedFlow
  /-- Raised by a data access, of an instruction, of an interrupt's vector read or of the host, that touches a byte in
  no region of `DMEM_REGIONS`; the address is that of the access (R94, D10). -/
  | unpopulatedData (a : Word)
  /-- Raised by a data access that touches a byte of a device, whose behaviour the spec does not give (R94, R100). -/
  | deviceAccess (a : Word)
  /-- Raised by a fetch from, or a host's write to, an address in no memory region of `IMEM_REGIONS` (R82, R94, D10). -/
  | unpopulatedInstruction (a : Word)
  /-- Raised by a host event offered in a run state in which R430 does not enable it. -/
  | eventNotEnabled
deriving DecidableEq, Repr

/-- The outcome of an instruction, an event or a step. -/
abbrev Result := Host.Outcome State Fault Refusal

/-- No flag set. -/
def Flags.clear : Flags := ⟨false, false, false, false⟩

/-- The machine right after a reset (R450, R451): pc = `RESET_IRN << 12`, CC = CCS = 0, IR = 1, IE = IS = 0, running.
R0 to RF, IVTP, LC, U0, SA, IA, TA and DBO are not defined after a reset: DESIGN CHOICE 0 (log entry 1). Nothing is
loaded in either memory, and the host offers nothing. -/
def State.reset : State where
  regs := Vector.replicate 16 0#16
  pc := Config.resetIrn.setWidth 16 <<< 12
  cc := Flags.clear
  ivtp := 0#11
  csIs := false
  csIe := false
  csIr := true
  lc := 0#10
  u0 := 0#10
  sa := 0#16
  ia := 0#16
  ta := 0#16
  ccs := Flags.clear
  run := .running
  dbo := 0#16
  dmem := []
  imem := []
  dbi := none
  inputs := []
  outputs := []

end Sys2Proof.Machine
end

