-- ==== Sys2Proof/Machine/Flags.lean ====
section
/-! DEFINITION. The flag computations (43_arithmetic.md R291, R292; 44_logic.md R300; 46_bit.md R323) and the branch
conditions (48_flow.md R346). -/

namespace Sys2Proof.Machine

/-- `AddC(x, y, r)` (R291): x = src1, y = src0, r the sum; `msb` is bit 15. -/
def addC (x y r : Word) : Bool := (x.msb && y.msb) || (x.msb && !r.msb) || (y.msb && !r.msb)

/-- `AddO(x, y, r)` (R291). -/
def addO (x y r : Word) : Bool := (x.msb && y.msb && !r.msb) || (!x.msb && !y.msb && r.msb)

/-- `SubC(x, y, r)` (R291): the borrow of x - y. -/
def subC (x y r : Word) : Bool := (!x.msb && y.msb) || (!x.msb && r.msb) || (y.msb && r.msb)

/-- `SubO(x, y, r)` (R291). -/
def subO (x y r : Word) : Bool := (x.msb && !y.msb && !r.msb) || (!x.msb && y.msb && r.msb)

/-- The flags of an addition with result `r` and Z as given. -/
def addFlags (x y r : Word) (z : Bool) : Flags := ⟨r.msb, z, addO x y r, addC x y r⟩

/-- The flags of a subtraction or comparison with result `r` and Z as given. -/
def subFlags (x y r : Word) (z : Bool) : Flags := ⟨r.msb, z, subO x y r, subC x y r⟩

/-- Z of the instructions without carry: the result is zero (R292). -/
def isZero (r : Word) : Bool := r == 0#16

/-- Z of the with-carry instructions: the result is zero and Z was set before (R292). -/
def chainZ (zOld : Bool) (r : Word) : Bool := zOld && isZero r

/-- The carry flag as the number added or subtracted by the with-carry instructions. -/
def carryWord (f : Flags) : Word := if f.c then 1#16 else 0#16

/-- The parity of the low `k` bits: true when an odd number of them is set. -/
def parityTo (r : Word) : Nat → Bool
  | 0 => false
  | k + 1 => parityTo r k ^^ r.getLsbD k

/-- `par` of R300: the parity of the 16 bits. -/
def parity (r : Word) : Bool := parityTo r 16

/-- The flags of `andb` (R300): O uses the old C. -/
def andFlags (old : Flags) (r : Word) : Flags := ⟨r.msb, isZero r, parity r ^^ old.c, parity r⟩

/-- The flags of `btts` (R323), `t` the value masked. -/
def bitTestFlags (t : Word) : Flags := ⟨t.msb, isZero t, false, false⟩

/-! The 14 conditions (R346, R354 to R367). -/

/-- `brnc`: `~C` (R354). -/
def condNC (f : Flags) : Bool := !f.c
/-- `brcr`: `C` (R355). -/
def condCR (f : Flags) : Bool := f.c
/-- `brno`: `~O` (R356). -/
def condNO (f : Flags) : Bool := !f.o
/-- `brof`: `O` (R357). -/
def condOF (f : Flags) : Bool := f.o
/-- `brnz`: `~Z` (R358). -/
def condNZ (f : Flags) : Bool := !f.z
/-- `brzr`: `Z` (R359). -/
def condZR (f : Flags) : Bool := f.z
/-- `brps`: `~N` (R360). -/
def condPS (f : Flags) : Bool := !f.n
/-- `brng`: `N` (R361). -/
def condNG (f : Flags) : Bool := f.n
/-- `brls`: `C | Z` (R362). -/
def condLS (f : Flags) : Bool := f.c || f.z
/-- `brhi`: `~C & ~Z` (R363). -/
def condHI (f : Flags) : Bool := !f.c && !f.z
/-- `brlo`: `(N & ~O) | (~N & O)` (R364). -/
def condLO (f : Flags) : Bool := (f.n && !f.o) || (!f.n && f.o)
/-- `brge`: `(N & O) | (~N & ~O)` (R365). -/
def condGE (f : Flags) : Bool := (f.n && f.o) || (!f.n && !f.o)
/-- `brle`: `Z | (N & ~O) | (~N & O)` (R366). -/
def condLE (f : Flags) : Bool := f.z || (f.n && !f.o) || (!f.n && f.o)
/-- `brgt`: `~Z & ((N & O) | (~N & ~O))` (R367). -/
def condGT (f : Flags) : Bool := !f.z && ((f.n && f.o) || (!f.n && !f.o))

/-- CC as a 16-bit value: N, Z, O, C in bits 3, 2, 1, 0, the rest zero (R36). -/
def flagsWord (f : Flags) : Word :=
  (if f.n then 8#16 else 0#16) ||| (if f.z then 4#16 else 0#16) ||| (if f.o then 2#16 else 0#16)
    ||| (if f.c then 1#16 else 0#16)

/-- The flags that bits 3:0 of a 16-bit value hold (R36). -/
def flagsOf (v : Word) : Flags := ⟨v.getLsbD 3, v.getLsbD 2, v.getLsbD 1, v.getLsbD 0⟩

end Sys2Proof.Machine
end

