-- ==== Sys2Proof/Machine/RegNumbers.lean ====
section
/-! DEFINITION. What register fields of an opcode name: An, the special register numbers, and the register selections
RGS with their two fixed orders (10_state.md R32, R46; 40_operands_addressing.md R178 to R182, R189, R190). -/

namespace Sys2Proof.Machine

/-- A 3-bit An field of value a names general purpose register 8 + a (R32, R178). -/
def addrReg (an : AddrNum) : RegNum := 8#4 + an.setWidth 4

/-- The special register a number names; 3 and 5 to 11 name none (R46). -/
def sregOf (n : SRegNum) : Option SReg :=
  match n.toNat with
  | 0 => some .cc
  | 1 => some .cs
  | 2 => some .lc
  | 4 => some .u0
  | 12 => some .sa
  | 13 => some .ia
  | 14 => some .ta
  | 15 => some .id
  | _ => none

/-- The fixed order of a register selection with (An)+: R0/SA, R2 to R7, R1/R9, RC/RA, RD/RB, the first of a pair for
bytes and the second for shorts (R181). It is the ascending order of the RGS flag bits (R133). -/
def upOrder : Size → List SelReg
  | .byte => [.gpr 0, .gpr 2, .gpr 3, .gpr 4, .gpr 5, .gpr 6, .gpr 7, .gpr 1, .gpr 12, .gpr 13]
  | .short => [.sa, .gpr 2, .gpr 3, .gpr 4, .gpr 5, .gpr 6, .gpr 7, .gpr 9, .gpr 10, .gpr 11]

/-- The fixed order of a register selection with -(An): RD/RB, RC/RA, R1/R9, R7 to R2, R0/SA (R182). Its flags are
coded reversed (R133), so this too is the ascending order of the flag bits. -/
def downOrder : Size → List SelReg
  | .byte => [.gpr 13, .gpr 12, .gpr 1, .gpr 7, .gpr 6, .gpr 5, .gpr 4, .gpr 3, .gpr 2, .gpr 0]
  | .short => [.gpr 11, .gpr 10, .gpr 9, .gpr 7, .gpr 6, .gpr 5, .gpr 4, .gpr 3, .gpr 2, .sa]

/-- The registers of `order` whose flag is set, the first of `order` having flag number `k` (R133: a set flag selects
the register, a clear flag leaves it out). -/
def pick (flags : BitVec 10) : Nat → List SelReg → List SelReg
  | _, [] => []
  | k, r :: rs => if flags.getLsbD k then r :: pick flags (k + 1) rs else pick flags (k + 1) rs

/-- The selected registers `rgs[0..n-1]` of an (An)+ form, in transfer order (R181). -/
def selUp (sz : Size) (rgs : BitVec 10) : List SelReg := pick rgs 0 (upOrder sz)

/-- The selected registers `rgs[0..n-1]` of a -(An) form, in transfer order (R182). -/
def selDown (sz : Size) (rgs : BitVec 10) : List SelReg := pick rgs 0 (downOrder sz)

/-- A selection contains the address register of its own instruction (R189). -/
def selHits (an : AddrNum) (sel : List SelReg) : Bool := sel.contains (.gpr (addrReg an))

end Sys2Proof.Machine
end

