-- ==== Sys2Proof/Machine/Operands.lean ====
section
/-! DEFINITION. Constant operands and the sizes and extensions of operand values (40_operands_addressing.md R170 to
R175, R183 to R195). -/

namespace Sys2Proof.Machine

/-- `sext_N(v)` of R8. -/
def sext {n : Nat} (v : BitVec n) : Word := v.signExtend 16

/-- `zext_N(v)` of R8. -/
def zext {n : Nat} (v : BitVec n) : Word := v.setWidth 16

/-- C16: the coded byte is bits 15:8, bits 7:0 are zero (R173). -/
def c16 (hi : BitVec 8) : Word := zext hi <<< 8

/-- A shift count or bit index held in a register: bits [3:0], bits [15:4] are ignored (R314, R324). -/
def count (x : Word) : BitVec 4 := x.extractLsb' 0 4

/-- The size of an operand in bytes (R9). -/
def sizeBytes : Size → Word
  | .byte => 1#16
  | .short => 2#16

/-- The address a 16-bit access goes to: bit 0 is ignored (R87, R90, D2). -/
def aligned (a : Word) : Word := a &&& 0xFFFE#16

end Sys2Proof.Machine
end

