-- ==== Sys2Proof/Machine/Ops.lean ====
section
/-! DEFINITION. The named operations on registers, memory and ports that the meanings share, and the operations of the
machine as a whole: fetching an opcode word, taking an interrupt and returning from one, and reset. -/

namespace Sys2Proof.Machine

/-! ## Memories as canonical lists -/

/-- The content of address `a`, if the list holds one. -/
def Memory.find {α : Type} (a : Nat) : List (Nat × α) → Option α
  | [] => none
  | (b, v) :: m => if a = b then some v else Memory.find a m

/-- Writing `v` at address `a`; a rising list stays rising. -/
def Memory.put {α : Type} (a : Nat) (v : α) : List (Nat × α) → List (Nat × α)
  | [] => [(a, v)]
  | (b, w) :: m =>
    if a < b then (a, v) :: (b, w) :: m
    else if a = b then (a, v) :: m
    else (b, w) :: Memory.put a v m

/-- Every address of the list is at least `lo`, below 65536, and the addresses rise strictly. -/
def Memory.wfFrom {α : Type} (lo : Nat) : List (Nat × α) → Bool
  | [] => true
  | (a, _) :: m => decide (lo ≤ a) && decide (a < 65536) && Memory.wfFrom (a + 1) m

/-- The canonical form of a memory: strictly rising addresses inside the 64K space (R80, R84). An unlisted address
holds no value, so no entry equals what an unlisted address reads as. -/
def Memory.wf {α : Type} (m : List (Nat × α)) : Bool := Memory.wfFrom 0 m

/-! ## Registers -/

/-- `x[r]` (R8). -/
def State.reg (s : State) (r : RegNum) : Word := s.regs[r.toNat]'r.isLt

/-- `x[r] <- v` (R8). -/
def State.setReg (s : State) (r : RegNum) (v : Word) : State := { s with regs := s.regs.set r.toNat v r.isLt }

/-- `pc <- t`. -/
def State.setPc (s : State) (t : Word) : State := { s with pc := t }

/-- `pc <- pc + 1`, modulo 2^16 (R35, D1). -/
def State.advance (s : State) : State := s.setPc (s.pc + 1#16)

/-- `(N, Z, O, C) <- f`. -/
def State.setCC (s : State) (f : Flags) : State := { s with cc := f }

/-- The content of a member of a register selection (R179). -/
def State.sel (s : State) : SelReg → Word
  | .gpr r => s.reg r
  | .sa => s.sa

/-- Writing a member of a register selection (R179). -/
def State.setSel (s : State) (m : SelReg) (v : Word) : State :=
  match m with
  | .gpr r => s.setReg r v
  | .sa => { s with sa := v }

/-- The identification constant: REV, IMA, ISA = 1, FML = 7 (R53). -/
def idWord : Word := zext Config.idRev <<< 12 ||| zext Config.idIma <<< 8 ||| 0x0017#16

/-- CS as a 16-bit value: IVTP in bits 15:5, IS, IE, IR in bits 2, 1, 0, bits 4:3 zero (R40). -/
def State.csWord (s : State) : Word :=
  zext s.ivtp <<< 5 ||| (if s.csIs then 4#16 else 0#16) ||| (if s.csIe then 2#16 else 0#16)
    ||| (if s.csIr then 1#16 else 0#16)

/-- `SR[n]` (R54). -/
def State.readSR (s : State) : SReg → Word
  | .cc => flagsWord s.cc
  | .cs => s.csWord
  | .lc => zext s.lc
  | .u0 => sext s.u0
  | .sa => s.sa
  | .ia => s.ia
  | .ta => s.ta
  | .id => idWord

/-- `SR[n] <- v` (R54): reserved bits, and the flag bits of CS, are not modified (R41, R47); ID is read-only (R53). -/
def State.writeSR (s : State) (n : SReg) (v : Word) : State :=
  match n with
  | .cc => s.setCC (flagsOf v)
  | .cs => { s with ivtp := v.extractLsb' 5 11 }
  | .lc => { s with lc := v.extractLsb' 0 10 }
  | .u0 => { s with u0 := v.extractLsb' 0 10 }
  | .sa => { s with sa := v }
  | .ia => { s with ia := v }
  | .ta => { s with ta := v }
  | .id => s

/-! ## Ports -/

/-- An output of the core (R430). -/
def State.emit (s : State) (o : Output) : State := { s with outputs := o :: s.outputs }

/-- `DbgOut(v)`: the latch `DBO` and the output event (R58, R255). -/
def State.dbgOut (s : State) (v : Word) : State := { s.emit (.dbo v) with dbo := v }

/-- An instruction that takes `DbgIn()[15:0]`: it completes in `next` of what the debug module drives, bits 19:16
ignored, and is refused when the host supplies nothing (R254, R381, R429, D19; log entry 10). -/
def State.dbgIn (s : State) (next : Word → State) : Result :=
  match s.dbi with
  | some v => .next (next (v.extractLsb' 0 16))
  | none => .refused .debugInputUndriven

/-! ## Data memory -/

/-- `DMem[a]` (R84): the byte written there, or the free value of that address (R94; log entry 4). -/
def State.readByte (s : State) (a : Word) : Byte := (Memory.find a.toNat s.dmem).getD (Config.initialByte a)

/-- `DMem[a] <- b`. -/
def State.putByte (s : State) (a : Word) (b : Byte) : State := { s with dmem := Memory.put a.toNat b s.dmem }

/-- The value of `MemRead(a, n)`: a byte zero-extended (R86), or the little-endian short at the aligned address
(R87, R90). -/
def State.dataAt (s : State) (sz : Size) (a : Word) : Word :=
  match sz with
  | .byte => zext (s.readByte a)
  | .short => zext (s.readByte (aligned a + 1#16)) <<< 8 ||| zext (s.readByte (aligned a))

/-- The bus traffic of `MemRead(a, n)`: nothing else changes. -/
def State.noteRead (s : State) (sz : Size) (a : Word) : State := s.emit (.read sz a (s.dataAt sz a))

/-- The value of size `sz` that a register stores: a byte store discards the 8 MSBs (R88). -/
def truncated : Size → Word → Word
  | .byte, v => zext (v.extractLsb' 0 8)
  | .short, v => v

/-- `MemWrite(a, n, v)` (R88, R89, R90). -/
def State.memWrite (s : State) (sz : Size) (a v : Word) : State :=
  match sz with
  | .byte => (s.emit (.write .byte a (truncated .byte v))).putByte a (v.extractLsb' 0 8)
  | .short => ((s.emit (.write .short a v)).putByte (aligned a) (v.extractLsb' 0 8)).putByte
      (aligned a + 1#16) (v.extractLsb' 8 8)

/-! ## Results of computation instructions -/

/-- Write Rd, go on to the next instruction (R290). -/
def State.finish (s : State) (rd : RegNum) (v : Word) : State := (s.setReg rd v).advance

/-- Write Rd and CC, go on to the next instruction. -/
def State.finishCC (s : State) (rd : RegNum) (v : Word) (f : Flags) : State := ((s.setReg rd v).setCC f).advance

/-- Write CC only, go on to the next instruction. -/
def State.finishTest (s : State) (f : Flags) : State := (s.setCC f).advance

/-! ## The populated regions (R94) -/

/-- What stands at address `a` under the region map `m`; none where nothing is mapped. -/
def Memory.kindAt (m : Config.Regions) (a : Word) : Option Config.RegionKind :=
  (m.find? fun r => decide (r.base ≤ a.toNat) && decide (a.toNat < r.base + r.size)).map (·.kind)

/-- The addresses of the bytes that an access of a size at `a` goes to (R86 to R90). -/
def Memory.bytesAt (sz : Size) (a : Word) : List Word :=
  match sz with
  | .byte => [a]
  | .short => [aligned a, aligned a + 1#16]

/-- Why an access to data memory under the map `m` has no outcome, if it has none: a byte in no region, or a byte of a
device (R94, D10). -/
def Memory.barrier (m : Config.Regions) (sz : Size) (a : Word) : Option Refusal :=
  if (Memory.bytesAt sz a).any fun b => Memory.kindAt m b == none then some (.unpopulatedData a)
  else if (Memory.bytesAt sz a).any fun b => Memory.kindAt m b == some .device then some (.deviceAccess a)
  else none

/-- The outcome `r` of what accesses data memory at `edas` in turn, under the map `m` (`DMEM_REGIONS`): refused at the
first access that is barred. -/
def Memory.dataAccess (m : Config.Regions) (sz : Size) (edas : List Word) (r : Result) : Result :=
  match edas.findSome? (Memory.barrier m sz) with
  | some b => .refused b
  | none => r

/-- The outcome `r` of what accesses the word of instruction memory at `a`, under the map `m` (`IMEM_REGIONS`). -/
def Memory.instrAccess (m : Config.Regions) (a : Word) (r : Result) : Result :=
  if Memory.kindAt m a = some .memory then r else .refused (.unpopulatedInstruction a)

/-! ## Loads and stores (R215)

Each takes the map of data memory, `DMEM_REGIONS` (R94). -/

/-- A load into one register, no address update. -/
def State.loadTo (s : State) (m : Config.Regions) (sz : Size) (eda : Word) (rd : RegNum) : Result :=
  Memory.dataAccess m sz [eda] (.next ((s.noteRead sz eda).setReg rd (s.dataAt sz eda)).advance)

/-- A load into one register with an update of An; Rd = An is refused (R189). -/
def State.loadUpdate (s : State) (m : Config.Regions) (sz : Size) (eda : Word) (an : AddrNum) (newA : Word)
    (rd : RegNum) : Result :=
  if rd = addrReg an then .refused .addressRegisterOverlap
  else Memory.dataAccess m sz [eda]
    (.next ((((s.noteRead sz eda).setReg rd (s.dataAt sz eda)).setReg (addrReg an) newA).advance))

/-- A store of one register, no address update. -/
def State.storeFrom (s : State) (m : Config.Regions) (sz : Size) (eda : Word) (rs : RegNum) : Result :=
  Memory.dataAccess m sz [eda] (.next (s.memWrite sz eda (s.reg rs)).advance)

/-- A store of one register with an update of An: the source and the address are read before the update (R189). -/
def State.storeUpdate (s : State) (m : Config.Regions) (sz : Size) (eda : Word) (an : AddrNum) (newA : Word)
    (rs : RegNum) : Result :=
  Memory.dataAccess m sz [eda] (.next ((s.memWrite sz eda (s.reg rs)).setReg (addrReg an) newA).advance)

/-- The content of An (R178). -/
def State.addr (s : State) (an : AddrNum) : Word := s.reg (addrReg an)

/-- `An + sext_8(DO8)` (R184). -/
def State.edaOffset (s : State) (ofs : BitVec 8) (an : AddrNum) : Word := s.addr an + sext ofs

/-- `An + size * Rx` (R185). -/
def State.edaIndex (s : State) (sz : Size) (rx : RegNum) (an : AddrNum) : Word := s.addr an + sizeBytes sz * s.reg rx

/-- The address below An by one operand: `An - size` (R187). -/
def State.edaPreDec (s : State) (sz : Size) (an : AddrNum) : Word := s.addr an - sizeBytes sz

/-- `An + sext_10(U0)`, the value An takes after an (An)* access (R188). -/
def State.postUpdated (s : State) (an : AddrNum) : Word := s.addr an + sext s.u0

/-- The accesses of an RGS load with (An)+ from `eda` upward (R181). -/
def loadUp (sz : Size) : List SelReg → Word → State → State
  | [], _, s => s
  | r :: rs, eda, s => loadUp sz rs (eda + sizeBytes sz) ((s.noteRead sz eda).setSel r (s.dataAt sz eda))

/-- The accesses of an RGS load with -(An) from below `eda` downward (R182). -/
def loadDown (sz : Size) : List SelReg → Word → State → State
  | [], _, s => s
  | r :: rs, eda, s =>
    loadDown sz rs (eda - sizeBytes sz) ((s.noteRead sz (eda - sizeBytes sz)).setSel r (s.dataAt sz (eda - sizeBytes sz)))

/-- The accesses of an RGS store with (An)+ from `eda` upward (R181). -/
def storeUp (sz : Size) : List SelReg → Word → State → State
  | [], _, s => s
  | r :: rs, eda, s => storeUp sz rs (eda + sizeBytes sz) (s.memWrite sz eda (s.sel r))

/-- The accesses of an RGS store with -(An) from below `eda` downward (R182). -/
def storeDown (sz : Size) : List SelReg → Word → State → State
  | [], _, s => s
  | r :: rs, eda, s => storeDown sz rs (eda - sizeBytes sz) (s.memWrite sz (eda - sizeBytes sz) (s.sel r))

/-- The bytes that `n` operands of size `sz` take: `size * n`. -/
def span (sz : Size) (n : Nat) : Word := sizeBytes sz * BitVec.ofNat 16 n

/-- The addresses of `n` accesses from `a` upward (R181). -/
def edasUp (sz : Size) (n : Nat) (a : Word) : List Word := (List.range n).map fun k => a + span sz k

/-- The addresses of `n` accesses from below `a` downward (R182). -/
def edasDown (sz : Size) (n : Nat) (a : Word) : List Word := (List.range n).map fun k => a - span sz k - sizeBytes sz

/-- An RGS instruction whose accesses are `access`, at the addresses `edas`, and whose An becomes `newA`: an empty
selection (R190) and one that holds An (R189) are refused. -/
def State.transfer (s : State) (m : Config.Regions) (sz : Size) (an : AddrNum) (sel : List SelReg) (edas : List Word)
    (access : State → State) (newA : Word) : Result :=
  if sel.isEmpty then .refused .emptySelection
  else if selHits an sel then .refused .addressRegisterOverlap
  else Memory.dataAccess m sz edas (.next (((access s).setReg (addrReg an) newA).advance))

/-- `(An)+,RGS` as a load (R181, R210, R211). -/
def State.loadSelUp (s : State) (m : Config.Regions) (sz : Size) (an : AddrNum) (rgs : BitVec 10) : Result :=
  s.transfer m sz an (selUp sz rgs) (edasUp sz (selUp sz rgs).length (s.addr an))
    (loadUp sz (selUp sz rgs) (s.addr an)) (s.addr an + span sz (selUp sz rgs).length)

/-- `-(An),RGS` as a load (R182, R210, R211). -/
def State.loadSelDown (s : State) (m : Config.Regions) (sz : Size) (an : AddrNum) (rgs : BitVec 10) : Result :=
  s.transfer m sz an (selDown sz rgs) (edasDown sz (selDown sz rgs).length (s.addr an))
    (loadDown sz (selDown sz rgs) (s.addr an)) (s.addr an - span sz (selDown sz rgs).length)

/-- `RGS,(An)+` as a store (R181, R212, R213). -/
def State.storeSelUp (s : State) (m : Config.Regions) (sz : Size) (an : AddrNum) (rgs : BitVec 10) : Result :=
  s.transfer m sz an (selUp sz rgs) (edasUp sz (selUp sz rgs).length (s.addr an))
    (storeUp sz (selUp sz rgs) (s.addr an)) (s.addr an + span sz (selUp sz rgs).length)

/-- `RGS,-(An)` as a store (R182, R212, R213). -/
def State.storeSelDown (s : State) (m : Config.Regions) (sz : Size) (an : AddrNum) (rgs : BitVec 10) : Result :=
  s.transfer m sz an (selDown sz rgs) (edasDown sz (selDown sz rgs).length (s.addr an))
    (storeDown sz (selDown sz rgs) (s.addr an)) (s.addr an - span sz (selDown sz rgs).length)

/-! ## Fetch, interrupts, reset -/

/-- `IFetch(pc)` (R82): none where no word was ever loaded. -/
def State.fetch (s : State) : Option Opcode := Memory.find s.pc.toNat s.imem

/-- The host's write of one instruction word (R83, R99). -/
def State.putInstr (s : State) (a : Word) (w : Opcode) : State := { s with imem := Memory.put a.toNat w s.imem }

/-- A request is acknowledged when IE = 1, IR = 0 and the core is running (R403). -/
def State.acknowledges (s : State) : Bool := s.csIe && !s.csIr && s.run == .running

/-- `vector_address(k)` (R405). -/
def State.vectorAddress (s : State) (k : BitVec 4) : Word := (zext s.ivtp <<< 5) + 2#16 * zext k

/-- TAKING AN INTERRUPT: the entry sequence of R407. IE, IS and CC are not changed (R408, R409). -/
def State.takeInterrupt (s : State) (k : BitVec 4) : State :=
  { (s.emit (.iack k)).noteRead .short (s.vectorAddress k) with
    ia := s.pc
    ccs := s.cc
    csIr := true
    pc := s.dataAt .short (s.vectorAddress k) }

/-- RETURNING FROM AN INTERRUPT: `pc <- IA; CC <- CCS; CS.IR <- 0` (R343, R411). -/
def State.returnFromInterrupt (s : State) : State := { s with pc := s.ia, cc := s.ccs, csIr := false }

/-- `Reset(irn)` (R450, R451, R454): the core is as after any reset, started at `irn << 12`; both memories keep their
content; with `STRQ` asserted when reset is released the core is stopped (D9). The model's own fields
go on. -/
def State.applyReset (s : State) (irn : BitVec 4) (strq : Bool) : State :=
  { State.reset with
    pc := zext irn <<< 12
    run := if strq then .stopped else .running
    dmem := s.dmem
    imem := s.imem
    dbi := s.dbi
    inputs := s.inputs
    outputs := s.outputs }

end Sys2Proof.Machine
end

