-- ==== Sys2Proof/Machine/Arith.lean ====
section
/-! DEFINITION. The arithmetic instructions (43_arithmetic.md R270 to R293). -/

namespace Sys2Proof.Machine

/-! Shared operations: `src0` is the right-hand operand, `src1` the left-hand one (R10). -/

/-- `src1 + src0` with the add flags and the plain Z (R272). -/
def State.add (s : State) (src0 src1 : Word) (rd : RegNum) : State :=
  s.finishCC rd (src1 + src0) (addFlags src1 src0 (src1 + src0) (isZero (src1 + src0)))

/-- `src1 + src0 + C`. -/
def State.sumC (s : State) (src0 src1 : Word) : Word := src1 + src0 + carryWord s.cc

/-- `src1 + src0 + C` with the add flags and the chained Z (R271, R292). -/
def State.addWithCarry (s : State) (src0 src1 : Word) (rd : RegNum) : State :=
  s.finishCC rd (s.sumC src0 src1) (addFlags src1 src0 (s.sumC src0 src1) (chainZ s.cc.z (s.sumC src0 src1)))

/-- The flags of `src1 - src0` with the plain Z (R279, R287). -/
def diffFlags (src0 src1 : Word) : Flags := subFlags src1 src0 (src1 - src0) (isZero (src1 - src0))

/-- `src1 - src0 - C`. -/
def State.diffC (s : State) (src0 src1 : Word) : Word := src1 - src0 - carryWord s.cc

/-- The flags of `src1 - src0 - C` with the chained Z (R278, R286, R292). -/
def State.diffFlagsC (s : State) (src0 src1 : Word) : Flags :=
  subFlags src1 src0 (s.diffC src0 src1) (chainZ s.cc.z (s.diffC src0 src1))

/-- `absl` of R270. -/
def absWord (x : Word) : Word := if x.msb then 0#16 - x else x

/-- The zero bits of the low `k` bits of `x` from bit k - 1 downward, until the first one bit (R277). -/
def leadingZeros (x : Word) : Nat → Nat
  | 0 => 0
  | k + 1 => if x.getLsbD k then 0 else leadingZeros x k + 1

/-! The meanings. -/

/-- `addt Rs0,Rs1,Rd` (R272). -/
def execAddtReg (rs0 rs1 rd : RegNum) (s : State) : Result := .next (s.add (s.reg rs0) (s.reg rs1) rd)

/-- `addt C8_U,Rb` (R272). -/
def execAddtImm (c8 : BitVec 8) (rb : RegNum) (s : State) : Result := .next (s.add (zext c8) (s.reg rb) rb)

/-- `addc Rs0,Rs1,Rd` (R271). -/
def execAddc (rs0 rs1 rd : RegNum) (s : State) : Result := .next (s.addWithCarry (s.reg rs0) (s.reg rs1) rd)

/-- `adcf Rs,Rd` (R273). -/
def execAdcf (rs rd : RegNum) (s : State) : Result := .next (s.addWithCarry 0#16 (s.reg rs) rd)

/-- `subf Rs0,Rs1,Rd` (R287). -/
def execSubfReg (rs0 rs1 rd : RegNum) (s : State) : Result :=
  .next (s.finishCC rd (s.reg rs1 - s.reg rs0) (diffFlags (s.reg rs0) (s.reg rs1)))

/-- `subf C8_U,Rb` (R287). -/
def execSubfImm (c8 : BitVec 8) (rb : RegNum) (s : State) : Result :=
  .next (s.finishCC rb (s.reg rb - zext c8) (diffFlags (zext c8) (s.reg rb)))

/-- `subc Rs0,Rs1,Rd` (R286). -/
def execSubc (rs0 rs1 rd : RegNum) (s : State) : Result :=
  .next (s.finishCC rd (s.diffC (s.reg rs0) (s.reg rs1)) (s.diffFlagsC (s.reg rs0) (s.reg rs1)))

/-- `sbcf Rs,Rd` (R285). -/
def execSbcf (rs rd : RegNum) (s : State) : Result :=
  .next (s.finishCC rd (s.diffC 0#16 (s.reg rs)) (s.diffFlagsC 0#16 (s.reg rs)))

/-- `comp Rs0,Rs1` (R279). -/
def execCompReg (rs0 rs1 : RegNum) (s : State) : Result :=
  .next (s.finishTest (diffFlags (s.reg rs0) (s.reg rs1)))

/-- `comp C10_S,Rs1` (R279). -/
def execCompImm (c10 : BitVec 10) (rs1 : RegNum) (s : State) : Result :=
  .next (s.finishTest (diffFlags (sext c10) (s.reg rs1)))

/-- `cmpc Rs0,Rs1` (R278). -/
def execCmpc (rs0 rs1 : RegNum) (s : State) : Result :=
  .next (s.finishTest (s.diffFlagsC (s.reg rs0) (s.reg rs1)))

/-- `cpcf Rs` (R280). -/
def execCpcf (rs : RegNum) (s : State) : Result := .next (s.finishTest (s.diffFlagsC 0#16 (s.reg rs)))

/-- `addh C16,Rb` (R274). -/
def execAddh (hi : BitVec 8) (rb : RegNum) (s : State) : Result := .next (s.finish rb (s.reg rb + c16 hi))

/-- `negt Rs,Rd` (R283). -/
def execNegt (rs rd : RegNum) (s : State) : Result := .next (s.finish rd (0#16 - s.reg rs))

/-- `absl Rs,Rd` (R270). -/
def execAbsl (rs rd : RegNum) (s : State) : Result := .next (s.finish rd (absWord (s.reg rs)))

/-- `clzr Rs,Rd` (R277). -/
def execClzr (rs rd : RegNum) (s : State) : Result :=
  .next (s.finish rd (BitVec.ofNat 16 (leadingZeros (s.reg rs) 16)))

/-- `sxbt Rs,Rd` (R288). -/
def execSxbt (rs rd : RegNum) (s : State) : Result := .next (s.finish rd (sext ((s.reg rs).extractLsb' 0 8)))

/-- `sxsh Rs,Rd` (R289). -/
def execSxsh (rs rd : RegNum) (s : State) : Result :=
  .next (s.finish rd (if (s.reg rs).msb then 0xFFFF#16 else 0#16))

end Sys2Proof.Machine
end

