-- ==== Sys2Proof/Machine/Bits.lean ====
section
/-! DEFINITION. The bit manipulation instructions (46_bit.md R320 to R324). `btst` is bit set, `btts` is bit test. -/

namespace Sys2Proof.Machine

/-- `mask = 1 << bti4` (R324). -/
def bitMask (n : BitVec 4) : Word := 1#16 <<< n.toNat

/-- `btcl Rs0,Rs1,Rd` (R320). -/
def execBtclReg (rs0 rs1 rd : RegNum) (s : State) : Result :=
  .next (s.finish rd (s.reg rs1 &&& ~~~ bitMask (count (s.reg rs0))))

/-- `btcl BTI4,Rs1,Rd` (R320). -/
def execBtclImm (bti : BitVec 4) (rs1 rd : RegNum) (s : State) : Result :=
  .next (s.finish rd (s.reg rs1 &&& ~~~ bitMask bti))

/-- `btst Rs0,Rs1,Rd` (R321). -/
def execBtstReg (rs0 rs1 rd : RegNum) (s : State) : Result :=
  .next (s.finish rd (s.reg rs1 ||| bitMask (count (s.reg rs0))))

/-- `btst BTI4,Rs1,Rd` (R321). -/
def execBtstImm (bti : BitVec 4) (rs1 rd : RegNum) (s : State) : Result :=
  .next (s.finish rd (s.reg rs1 ||| bitMask bti))

/-- `bttg Rs0,Rs1,Rd` (R322). -/
def execBttgReg (rs0 rs1 rd : RegNum) (s : State) : Result :=
  .next (s.finish rd (s.reg rs1 ^^^ bitMask (count (s.reg rs0))))

/-- `bttg BTI4,Rs1,Rd` (R322). -/
def execBttgImm (bti : BitVec 4) (rs1 rd : RegNum) (s : State) : Result :=
  .next (s.finish rd (s.reg rs1 ^^^ bitMask bti))

/-- `btts Rs0,Rs1` (R323). -/
def execBttsReg (rs0 rs1 : RegNum) (s : State) : Result :=
  .next (s.finishTest (bitTestFlags (s.reg rs1 &&& bitMask (count (s.reg rs0)))))

/-- `btts BTI4,Rs1` (R323). -/
def execBttsImm (bti : BitVec 4) (rs1 : RegNum) (s : State) : Result :=
  .next (s.finishTest (bitTestFlags (s.reg rs1 &&& bitMask bti)))

end Sys2Proof.Machine
end

