-- ==== Sys2Proof/Machine/Debug.lean ====
section
/-! DEFINITION. The debug flow instructions (49_debug_misc.md R380 to R386). -/

namespace Sys2Proof.Machine

/-- `svpc` (R380): drives its own address, or the held pc when injected (R385). -/
def execSvpc (s : State) : Result := .next (s.dbgOut s.pc).advance

/-- `rspc` (R381): no + 1 is applied. -/
def execRspc (s : State) : Result := s.dbgIn fun v => s.setPc v

/-- `stop` (R382). -/
def execStop (s : State) : Result := .next ({ s with run := .stopped } : State).advance

end Sys2Proof.Machine
end

