-- ==== Sys2Proof/Machine/Flow.lean ====
section
/-! DEFINITION. The flow control instructions (48_flow.md R340 to R368). -/

namespace Sys2Proof.Machine

/-- A branch: to `pc + offset` when `taken`, else to the next instruction (R195, R196, R346). -/
def State.branch (s : State) (taken : Bool) (io : BitVec 10) : State :=
  if taken then s.setPc (s.pc + sext io) else s.advance

/-- A jump to subroutine: `SA <- pc + 1; pc <- target` (R341). -/
def State.call (s : State) (target : Word) : State := { s with sa := s.pc + 1#16, pc := target }

/-- `jump` (R340). -/
def execJump (s : State) : Result := .next (s.setPc s.ta)

/-- `jpsr`, implied (R341). -/
def execJpsr (s : State) : Result := .next (s.call s.ta)

/-- `jpsr IA16` (R341, R193). -/
def execJpsrAbs (ia : Word) (s : State) : Result := .next (s.call ia)

/-- `rtsr` (R342). -/
def execRtsr (s : State) : Result := .next (s.setPc s.sa)

/-- `rtir` (R343): outside an interrupt its behaviour is not defined and the model refuses (D12). -/
def execRtir (s : State) : Result :=
  if s.csIr then .next s.returnFromInterrupt else .refused .returnOutsideInterrupt

/-- `bral IO14_S` (R344, R194). -/
def execBral (io : BitVec 14) (s : State) : Result := .next (s.setPc (s.pc + sext io))

/-- `brlc IO10_S` (R345): LC counts down modulo 2^10 and decides. -/
def execBrlc (io : BitVec 10) (s : State) : Result :=
  .next (({ s with lc := s.lc - 1#10 } : State).branch (s.lc - 1#10 != 0#10) io)

/-- `brnc IO10_S,S`, branch if no carry (R354, R346); S has no effect (R197). -/
def execBrnc (io : BitVec 10) (_sp : Bool) (s : State) : Result := .next (s.branch (condNC s.cc) io)

/-- `brcr IO10_S,S`, branch if carry (R355, R346); S has no effect (R197). -/
def execBrcr (io : BitVec 10) (_sp : Bool) (s : State) : Result := .next (s.branch (condCR s.cc) io)

/-- `brno IO10_S,S`, branch if no overflow (R356, R346); S has no effect (R197). -/
def execBrno (io : BitVec 10) (_sp : Bool) (s : State) : Result := .next (s.branch (condNO s.cc) io)

/-- `brof IO10_S,S`, branch if overflow (R357, R346); S has no effect (R197). -/
def execBrof (io : BitVec 10) (_sp : Bool) (s : State) : Result := .next (s.branch (condOF s.cc) io)

/-- `brnz IO10_S,S`, branch if non zero (R358, R346); S has no effect (R197). -/
def execBrnz (io : BitVec 10) (_sp : Bool) (s : State) : Result := .next (s.branch (condNZ s.cc) io)

/-- `brzr IO10_S,S`, branch if zero (R359, R346); S has no effect (R197). -/
def execBrzr (io : BitVec 10) (_sp : Bool) (s : State) : Result := .next (s.branch (condZR s.cc) io)

/-- `brps IO10_S,S`, branch if positive (R360, R346); S has no effect (R197). -/
def execBrps (io : BitVec 10) (_sp : Bool) (s : State) : Result := .next (s.branch (condPS s.cc) io)

/-- `brng IO10_S,S`, branch if negative (R361, R346); S has no effect (R197). -/
def execBrng (io : BitVec 10) (_sp : Bool) (s : State) : Result := .next (s.branch (condNG s.cc) io)

/-- `brls IO10_S,S`, branch if lower or same (R362, R346); S has no effect (R197). -/
def execBrls (io : BitVec 10) (_sp : Bool) (s : State) : Result := .next (s.branch (condLS s.cc) io)

/-- `brhi IO10_S,S`, branch if higher (R363, R346); S has no effect (R197). -/
def execBrhi (io : BitVec 10) (_sp : Bool) (s : State) : Result := .next (s.branch (condHI s.cc) io)

/-- `brlo IO10_S,S`, branch if lower (R364, R346); S has no effect (R197). -/
def execBrlo (io : BitVec 10) (_sp : Bool) (s : State) : Result := .next (s.branch (condLO s.cc) io)

/-- `brge IO10_S,S`, branch if greater or equal (R365, R346); S has no effect (R197). -/
def execBrge (io : BitVec 10) (_sp : Bool) (s : State) : Result := .next (s.branch (condGE s.cc) io)

/-- `brle IO10_S,S`, branch if lower or equal (R366, R346); S has no effect (R197). -/
def execBrle (io : BitVec 10) (_sp : Bool) (s : State) : Result := .next (s.branch (condLE s.cc) io)

/-- `brgt IO10_S,S`, branch if greater (R367, R346); S has no effect (R197). -/
def execBrgt (io : BitVec 10) (_sp : Bool) (s : State) : Result := .next (s.branch (condGT s.cc) io)

/-- `stie` (R350). -/
def execStie (s : State) : Result := .next ({ s with csIe := true } : State).advance

/-- `clie` (R351). -/
def execClie (s : State) : Result := .next ({ s with csIe := false } : State).advance

/-- `scie` (R352). -/
def execScie (s : State) : Result := .next ({ s with csIs := s.csIe, csIe := false } : State).advance

/-- `rsie` (R353). -/
def execRsie (s : State) : Result := .next ({ s with csIe := s.csIs } : State).advance

end Sys2Proof.Machine
end

