-- ==== Sys2Proof/Machine/LoadStore.lean ====
section
/-! DEFINITION. The load and store instructions (41_load_store.md R210 to R219), each in its eight addressing modes
(40_operands_addressing.md R183 to R191). -/

namespace Sys2Proof.Machine

/-- `ldbt DA11_S,Rd` (R210, R183). -/
def execLdbtDirect (ea : BitVec 11) (rd : RegNum) (s : State) : Result :=
  s.loadTo Config.dmemRegions .byte (sext ea) rd

/-- `ldbt (DO8_S,An),Rd` (R210, R184). -/
def execLdbtOffset (ofs : BitVec 8) (an : AddrNum) (rd : RegNum) (s : State) : Result :=
  s.loadTo Config.dmemRegions .byte (s.edaOffset ofs an) rd

/-- `ldbt (Rx,An),Rd` (R210, R185). -/
def execLdbtIndex (rx : RegNum) (an : AddrNum) (rd : RegNum) (s : State) : Result :=
  s.loadTo Config.dmemRegions .byte (s.edaIndex .byte rx an) rd

/-- `ldbt (An)+,Rd` (R210, R186, R189). -/
def execLdbtPostInc (an : AddrNum) (rd : RegNum) (s : State) : Result :=
  s.loadUpdate Config.dmemRegions .byte (s.addr an) an (s.addr an + sizeBytes .byte) rd

/-- `ldbt -(An),Rd` (R210, R187, R189). -/
def execLdbtPreDec (an : AddrNum) (rd : RegNum) (s : State) : Result :=
  s.loadUpdate Config.dmemRegions .byte (s.edaPreDec .byte an) an (s.edaPreDec .byte an) rd

/-- `ldbt (An)*,Rd` (R210, R188, R189). -/
def execLdbtPostUpd (an : AddrNum) (rd : RegNum) (s : State) : Result :=
  s.loadUpdate Config.dmemRegions .byte (s.addr an) an (s.postUpdated an) rd

/-- `ldbt (An)+,RGS` (R210, R181). -/
def execLdbtPostIncSel (an : AddrNum) (rgs : BitVec 10) (s : State) : Result :=
  s.loadSelUp Config.dmemRegions .byte an rgs

/-- `ldbt -(An),RGS` (R210, R182). -/
def execLdbtPreDecSel (an : AddrNum) (rgs : BitVec 10) (s : State) : Result :=
  s.loadSelDown Config.dmemRegions .byte an rgs

/-- `ldsh DA11_S,Rd` (R211, R183). -/
def execLdshDirect (ea : BitVec 11) (rd : RegNum) (s : State) : Result :=
  s.loadTo Config.dmemRegions .short (sext ea) rd

/-- `ldsh (DO8_S,An),Rd` (R211, R184). -/
def execLdshOffset (ofs : BitVec 8) (an : AddrNum) (rd : RegNum) (s : State) : Result :=
  s.loadTo Config.dmemRegions .short (s.edaOffset ofs an) rd

/-- `ldsh (Rx,An),Rd` (R211, R185). -/
def execLdshIndex (rx : RegNum) (an : AddrNum) (rd : RegNum) (s : State) : Result :=
  s.loadTo Config.dmemRegions .short (s.edaIndex .short rx an) rd

/-- `ldsh (An)+,Rd` (R211, R186, R189). -/
def execLdshPostInc (an : AddrNum) (rd : RegNum) (s : State) : Result :=
  s.loadUpdate Config.dmemRegions .short (s.addr an) an (s.addr an + sizeBytes .short) rd

/-- `ldsh -(An),Rd` (R211, R187, R189). -/
def execLdshPreDec (an : AddrNum) (rd : RegNum) (s : State) : Result :=
  s.loadUpdate Config.dmemRegions .short (s.edaPreDec .short an) an (s.edaPreDec .short an) rd

/-- `ldsh (An)*,Rd` (R211, R188, R189). -/
def execLdshPostUpd (an : AddrNum) (rd : RegNum) (s : State) : Result :=
  s.loadUpdate Config.dmemRegions .short (s.addr an) an (s.postUpdated an) rd

/-- `ldsh (An)+,RGS` (R211, R181). -/
def execLdshPostIncSel (an : AddrNum) (rgs : BitVec 10) (s : State) : Result :=
  s.loadSelUp Config.dmemRegions .short an rgs

/-- `ldsh -(An),RGS` (R211, R182). -/
def execLdshPreDecSel (an : AddrNum) (rgs : BitVec 10) (s : State) : Result :=
  s.loadSelDown Config.dmemRegions .short an rgs

/-- `stbt Rs,DA11_S` (R212, R183). -/
def execStbtDirect (rs : RegNum) (ea : BitVec 11) (s : State) : Result :=
  s.storeFrom Config.dmemRegions .byte (sext ea) rs

/-- `stbt Rs,(DO8_S,An)` (R212, R184). -/
def execStbtOffset (rs : RegNum) (ofs : BitVec 8) (an : AddrNum) (s : State) : Result :=
  s.storeFrom Config.dmemRegions .byte (s.edaOffset ofs an) rs

/-- `stbt Rs,(Rx,An)` (R212, R185). -/
def execStbtIndex (rs rx : RegNum) (an : AddrNum) (s : State) : Result :=
  s.storeFrom Config.dmemRegions .byte (s.edaIndex .byte rx an) rs

/-- `stbt Rs,(An)+` (R212, R186); Rs = An stores the old An (R189). -/
def execStbtPostInc (rs : RegNum) (an : AddrNum) (s : State) : Result :=
  s.storeUpdate Config.dmemRegions .byte (s.addr an) an (s.addr an + sizeBytes .byte) rs

/-- `stbt Rs,-(An)` (R212, R187); Rs = An is refused (R189). -/
def execStbtPreDec (rs : RegNum) (an : AddrNum) (s : State) : Result :=
  if rs = addrReg an then .refused .addressRegisterOverlap
  else s.storeUpdate Config.dmemRegions .byte (s.edaPreDec .byte an) an (s.edaPreDec .byte an) rs

/-- `stbt Rs,(An)*` (R212, R188); Rs = An stores the old An (R189). -/
def execStbtPostUpd (rs : RegNum) (an : AddrNum) (s : State) : Result :=
  s.storeUpdate Config.dmemRegions .byte (s.addr an) an (s.postUpdated an) rs

/-- `stbt RGS,(An)+` (R212, R181). -/
def execStbtPostIncSel (rgs : BitVec 10) (an : AddrNum) (s : State) : Result :=
  s.storeSelUp Config.dmemRegions .byte an rgs

/-- `stbt RGS,-(An)` (R212, R182). -/
def execStbtPreDecSel (rgs : BitVec 10) (an : AddrNum) (s : State) : Result :=
  s.storeSelDown Config.dmemRegions .byte an rgs

/-- `stsh Rs,DA11_S` (R213, R183). -/
def execStshDirect (rs : RegNum) (ea : BitVec 11) (s : State) : Result :=
  s.storeFrom Config.dmemRegions .short (sext ea) rs

/-- `stsh Rs,(DO8_S,An)` (R213, R184). -/
def execStshOffset (rs : RegNum) (ofs : BitVec 8) (an : AddrNum) (s : State) : Result :=
  s.storeFrom Config.dmemRegions .short (s.edaOffset ofs an) rs

/-- `stsh Rs,(Rx,An)` (R213, R185). -/
def execStshIndex (rs rx : RegNum) (an : AddrNum) (s : State) : Result :=
  s.storeFrom Config.dmemRegions .short (s.edaIndex .short rx an) rs

/-- `stsh Rs,(An)+` (R213, R186); Rs = An stores the old An (R189). -/
def execStshPostInc (rs : RegNum) (an : AddrNum) (s : State) : Result :=
  s.storeUpdate Config.dmemRegions .short (s.addr an) an (s.addr an + sizeBytes .short) rs

/-- `stsh Rs,-(An)` (R213, R187); Rs = An is refused (R189). -/
def execStshPreDec (rs : RegNum) (an : AddrNum) (s : State) : Result :=
  if rs = addrReg an then .refused .addressRegisterOverlap
  else s.storeUpdate Config.dmemRegions .short (s.edaPreDec .short an) an (s.edaPreDec .short an) rs

/-- `stsh Rs,(An)*` (R213, R188); Rs = An stores the old An (R189). -/
def execStshPostUpd (rs : RegNum) (an : AddrNum) (s : State) : Result :=
  s.storeUpdate Config.dmemRegions .short (s.addr an) an (s.postUpdated an) rs

/-- `stsh RGS,(An)+` (R213, R181). -/
def execStshPostIncSel (rgs : BitVec 10) (an : AddrNum) (s : State) : Result :=
  s.storeSelUp Config.dmemRegions .short an rgs

/-- `stsh RGS,-(An)` (R213, R182). -/
def execStshPreDecSel (rgs : BitVec 10) (an : AddrNum) (s : State) : Result :=
  s.storeSelDown Config.dmemRegions .short an rgs

end Sys2Proof.Machine
end

