-- ==== Sys2Proof/Machine/Logic.lean ====
section
/-! DEFINITION. The logic instructions (44_logic.md R300 to R304). -/

namespace Sys2Proof.Machine

/-- `andb Rs0,Rs1,Rd` (R300). -/
def execAndbReg (rs0 rs1 rd : RegNum) (s : State) : Result :=
  .next (s.finishCC rd (s.reg rs1 &&& s.reg rs0) (andFlags s.cc (s.reg rs1 &&& s.reg rs0)))

/-- `andb C8_U,Rb` (R300). -/
def execAndbImm (c8 : BitVec 8) (rb : RegNum) (s : State) : Result :=
  .next (s.finishCC rb (s.reg rb &&& zext c8) (andFlags s.cc (s.reg rb &&& zext c8)))

/-- `iorb Rs0,Rs1,Rd` (R302). -/
def execIorbReg (rs0 rs1 rd : RegNum) (s : State) : Result := .next (s.finish rd (s.reg rs1 ||| s.reg rs0))

/-- `iorb C8_U,Rb` (R302). -/
def execIorbImm (c8 : BitVec 8) (rb : RegNum) (s : State) : Result := .next (s.finish rb (s.reg rb ||| zext c8))

/-- `xorb Rs0,Rs1,Rd` (R303). -/
def execXorbReg (rs0 rs1 rd : RegNum) (s : State) : Result := .next (s.finish rd (s.reg rs1 ^^^ s.reg rs0))

/-- `xorb C8_U,Rb` (R303). -/
def execXorbImm (c8 : BitVec 8) (rb : RegNum) (s : State) : Result := .next (s.finish rb (s.reg rb ^^^ zext c8))

/-- `invt Rs,Rd` (R301). -/
def execInvt (rs rd : RegNum) (s : State) : Result := .next (s.finish rd (s.reg rs ^^^ 0xFFFF#16))

end Sys2Proof.Machine
end

