-- ==== Sys2Proof/Machine/Move.lean ====
section
/-! DEFINITION. The move instructions (42_move.md R250 to R257). -/

namespace Sys2Proof.Machine

/-- Reading special register number `n` into Rd; a number that names no register is refused (R46, R252). -/
def State.moveFromSR (s : State) (n : SRegNum) (rd : RegNum) : Result :=
  match sregOf n with
  | some r => .next (s.finish rd (s.readSR r))
  | none => .refused (.reservedSpecialRegister n)

/-- Writing special register number `n`; a number that names no register is refused (R46, R253). -/
def State.moveToSR (s : State) (v : Word) (n : SRegNum) : Result :=
  match sregOf n with
  | some r => .next (s.writeSR r v).advance
  | none => .refused (.reservedSpecialRegister n)

/-- `move Rs,Rd` (R250). -/
def execMoveReg (rs rd : RegNum) (s : State) : Result := .next (s.finish rd (s.reg rs))

/-- `move C10_S,Rd` (R250). -/
def execMoveImm (c10 : BitVec 10) (rd : RegNum) (s : State) : Result := .next (s.finish rd (sext c10))

/-- `mvsr C10_S,Rd` (R251): the stack reference R8 + C10. -/
def execMvsr (c10 : BitVec 10) (rd : RegNum) (s : State) : Result := .next (s.finish rd (s.reg 8#4 + sext c10))

/-- `mfsr SRs,Rd` (R252). -/
def execMfsr (srs : SRegNum) (rd : RegNum) (s : State) : Result := s.moveFromSR srs rd

/-- `mtsr Rs,SRd` (R253). -/
def execMtsrReg (rs : RegNum) (srd : SRegNum) (s : State) : Result := s.moveToSR (s.reg rs) srd

/-- `mtsr C10,SRd` (R172, R253): the constant is zero-extended. -/
def execMtsrImm (c10 : BitVec 10) (srd : SRegNum) (s : State) : Result := s.moveToSR (zext c10) srd

/-- `mfdp Rd` (R254). -/
def execMfdp (rd : RegNum) (s : State) : Result := s.dbgIn fun v => s.finish rd v

/-- `mtdp Rs` (R255). -/
def execMtdp (rs : RegNum) (s : State) : Result := .next (s.dbgOut (s.reg rs)).advance

end Sys2Proof.Machine
end

