-- ==== Sys2Proof/Machine/Multiply.lean ====
section
/-! DEFINITION. The multiply instructions (47_multiply.md R330 to R334). None writes CC. -/

namespace Sys2Proof.Machine

/-- Bits 31:16 of the exact unsigned product (R332). -/
def mulHighUnsigned (x y : Word) : Word := ((x.setWidth 32) * (y.setWidth 32)).extractLsb' 16 16

/-- Bits 31:16 of the exact signed product (R331). -/
def mulHighSigned (x y : Word) : Word := ((x.signExtend 32) * (y.signExtend 32)).extractLsb' 16 16

/-- `mult Rs0,Rs1,Rd` (R333). -/
def execMult (rs0 rs1 rd : RegNum) (s : State) : Result := .next (s.finish rd (s.reg rs1 * s.reg rs0))

/-- `mlhu Rs0,Rs1,Rd` (R332). -/
def execMlhu (rs0 rs1 rd : RegNum) (s : State) : Result :=
  .next (s.finish rd (mulHighUnsigned (s.reg rs1) (s.reg rs0)))

/-- `mlhs Rs0,Rs1,Rd` (R331). -/
def execMlhs (rs0 rs1 rd : RegNum) (s : State) : Result :=
  .next (s.finish rd (mulHighSigned (s.reg rs1) (s.reg rs0)))

/-- `mlcu C8_U,Rb` (R330). -/
def execMlcu (c8 : BitVec 8) (rb : RegNum) (s : State) : Result := .next (s.finish rb (s.reg rb * zext c8))

end Sys2Proof.Machine
end

