-- ==== Sys2Proof/Machine/Shift.lean ====
section
/-! DEFINITION. The shift instructions (45_shift.md R310 to R314): a count of 0 to 15 and a value. -/

namespace Sys2Proof.Machine

/-- `src << shc4` (R311). -/
def shiftLeft (n : BitVec 4) (src : Word) : Word := src <<< n.toNat

/-- `src >> shc4`, zeros enter at bit 15 (R313). -/
def shiftRight (n : BitVec 4) (src : Word) : Word := src >>> n.toNat

/-- `(src << shc4) | (src >> (16 - shc4))` (R310). -/
def rotateLeft (n : BitVec 4) (src : Word) : Word := src <<< n.toNat ||| src >>> (16 - n.toNat)

/-- `(src >> shc4) | (0xFFFF << (16 - shc4))` for a negative src, `src >> shc4` for another (R312). -/
def shiftRightSigned (n : BitVec 4) (src : Word) : Word :=
  src >>> n.toNat ||| (if src.msb then 0xFFFF#16 <<< (16 - n.toNat) else 0#16)

/-- `shlz Rs0,Rs1,Rd` (R311, R314). -/
def execShlzReg (rs0 rs1 rd : RegNum) (s : State) : Result :=
  .next (s.finish rd (shiftLeft (count (s.reg rs0)) (s.reg rs1)))

/-- `shlz SHC4,Rs1,Rd` (R311). -/
def execShlzImm (shc : BitVec 4) (rs1 rd : RegNum) (s : State) : Result :=
  .next (s.finish rd (shiftLeft shc (s.reg rs1)))

/-- `shru Rs0,Rs1,Rd` (R313, R314). -/
def execShruReg (rs0 rs1 rd : RegNum) (s : State) : Result :=
  .next (s.finish rd (shiftRight (count (s.reg rs0)) (s.reg rs1)))

/-- `shru SHC4,Rs1,Rd` (R313). -/
def execShruImm (shc : BitVec 4) (rs1 rd : RegNum) (s : State) : Result :=
  .next (s.finish rd (shiftRight shc (s.reg rs1)))

/-- `shlf Rs0,Rs1,Rd` (R310, R314). -/
def execShlfReg (rs0 rs1 rd : RegNum) (s : State) : Result :=
  .next (s.finish rd (rotateLeft (count (s.reg rs0)) (s.reg rs1)))

/-- `shlf SHC4,Rs1,Rd` (R310). -/
def execShlfImm (shc : BitVec 4) (rs1 rd : RegNum) (s : State) : Result :=
  .next (s.finish rd (rotateLeft shc (s.reg rs1)))

/-- `shrs Rs0,Rs1,Rd` (R312, R314). -/
def execShrsReg (rs0 rs1 rd : RegNum) (s : State) : Result :=
  .next (s.finish rd (shiftRightSigned (count (s.reg rs0)) (s.reg rs1)))

/-- `shrs SHC4,Rs1,Rd` (R312). -/
def execShrsImm (shc : BitVec 4) (rs1 rd : RegNum) (s : State) : Result :=
  .next (s.finish rd (shiftRightSigned shc (s.reg rs1)))

end Sys2Proof.Machine
end

