-- ==== Sys2Proof/Machine/Dispatch.lean ====
section
/-! DEFINITION. The dispatch of every instruction to its meaning. -/

namespace Sys2Proof.Machine

def exec (i : Instr) (s : State) : Host.Outcome State Fault Refusal :=
  match i with
  | .subfReg rs0 rs1 rd => Sys2Proof.Machine.execSubfReg rs0 rs1 rd s
  | .subfImm c8 rb => Sys2Proof.Machine.execSubfImm c8 rb s
  | .addtReg rs0 rs1 rd => Sys2Proof.Machine.execAddtReg rs0 rs1 rd s
  | .addtImm c8 rb => Sys2Proof.Machine.execAddtImm c8 rb s
  | .subc rs0 rs1 rd => Sys2Proof.Machine.execSubc rs0 rs1 rd s
  | .addc rs0 rs1 rd => Sys2Proof.Machine.execAddc rs0 rs1 rd s
  | .adcf rs rd => Sys2Proof.Machine.execAdcf rs rd s
  | .sbcf rs rd => Sys2Proof.Machine.execSbcf rs rd s
  | .compReg rs0 rs1 => Sys2Proof.Machine.execCompReg rs0 rs1 s
  | .compImm c10 rs1 => Sys2Proof.Machine.execCompImm c10 rs1 s
  | .cmpc rs0 rs1 => Sys2Proof.Machine.execCmpc rs0 rs1 s
  | .cpcf rs => Sys2Proof.Machine.execCpcf rs s
  | .addh hi rb => Sys2Proof.Machine.execAddh hi rb s
  | .negt rs rd => Sys2Proof.Machine.execNegt rs rd s
  | .absl rs rd => Sys2Proof.Machine.execAbsl rs rd s
  | .clzr rs rd => Sys2Proof.Machine.execClzr rs rd s
  | .sxbt rs rd => Sys2Proof.Machine.execSxbt rs rd s
  | .sxsh rs rd => Sys2Proof.Machine.execSxsh rs rd s
  | .andbReg rs0 rs1 rd => Sys2Proof.Machine.execAndbReg rs0 rs1 rd s
  | .andbImm c8 rb => Sys2Proof.Machine.execAndbImm c8 rb s
  | .iorbReg rs0 rs1 rd => Sys2Proof.Machine.execIorbReg rs0 rs1 rd s
  | .iorbImm c8 rb => Sys2Proof.Machine.execIorbImm c8 rb s
  | .xorbReg rs0 rs1 rd => Sys2Proof.Machine.execXorbReg rs0 rs1 rd s
  | .xorbImm c8 rb => Sys2Proof.Machine.execXorbImm c8 rb s
  | .invt rs rd => Sys2Proof.Machine.execInvt rs rd s
  | .shlzReg rs0 rs1 rd => Sys2Proof.Machine.execShlzReg rs0 rs1 rd s
  | .shlzImm shc rs1 rd => Sys2Proof.Machine.execShlzImm shc rs1 rd s
  | .shruReg rs0 rs1 rd => Sys2Proof.Machine.execShruReg rs0 rs1 rd s
  | .shruImm shc rs1 rd => Sys2Proof.Machine.execShruImm shc rs1 rd s
  | .shlfReg rs0 rs1 rd => Sys2Proof.Machine.execShlfReg rs0 rs1 rd s
  | .shlfImm shc rs1 rd => Sys2Proof.Machine.execShlfImm shc rs1 rd s
  | .shrsReg rs0 rs1 rd => Sys2Proof.Machine.execShrsReg rs0 rs1 rd s
  | .shrsImm shc rs1 rd => Sys2Proof.Machine.execShrsImm shc rs1 rd s
  | .btclReg rs0 rs1 rd => Sys2Proof.Machine.execBtclReg rs0 rs1 rd s
  | .btclImm bti rs1 rd => Sys2Proof.Machine.execBtclImm bti rs1 rd s
  | .btstReg rs0 rs1 rd => Sys2Proof.Machine.execBtstReg rs0 rs1 rd s
  | .btstImm bti rs1 rd => Sys2Proof.Machine.execBtstImm bti rs1 rd s
  | .bttgReg rs0 rs1 rd => Sys2Proof.Machine.execBttgReg rs0 rs1 rd s
  | .bttgImm bti rs1 rd => Sys2Proof.Machine.execBttgImm bti rs1 rd s
  | .bttsReg rs0 rs1 => Sys2Proof.Machine.execBttsReg rs0 rs1 s
  | .bttsImm bti rs1 => Sys2Proof.Machine.execBttsImm bti rs1 s
  | .mult rs0 rs1 rd => Sys2Proof.Machine.execMult rs0 rs1 rd s
  | .mlhu rs0 rs1 rd => Sys2Proof.Machine.execMlhu rs0 rs1 rd s
  | .mlhs rs0 rs1 rd => Sys2Proof.Machine.execMlhs rs0 rs1 rd s
  | .mlcu c8 rb => Sys2Proof.Machine.execMlcu c8 rb s
  | .moveReg rs rd => Sys2Proof.Machine.execMoveReg rs rd s
  | .moveImm c10 rd => Sys2Proof.Machine.execMoveImm c10 rd s
  | .mvsr c10 rd => Sys2Proof.Machine.execMvsr c10 rd s
  | .mfsr srs rd => Sys2Proof.Machine.execMfsr srs rd s
  | .mtsrReg rs srd => Sys2Proof.Machine.execMtsrReg rs srd s
  | .mtsrImm c10 srd => Sys2Proof.Machine.execMtsrImm c10 srd s
  | .mfdp rd => Sys2Proof.Machine.execMfdp rd s
  | .mtdp rs => Sys2Proof.Machine.execMtdp rs s
  | .ldbtDirect ea rd => Sys2Proof.Machine.execLdbtDirect ea rd s
  | .ldbtOffset ofs an rd => Sys2Proof.Machine.execLdbtOffset ofs an rd s
  | .ldbtIndex rx an rd => Sys2Proof.Machine.execLdbtIndex rx an rd s
  | .ldbtPostInc an rd => Sys2Proof.Machine.execLdbtPostInc an rd s
  | .ldbtPreDec an rd => Sys2Proof.Machine.execLdbtPreDec an rd s
  | .ldbtPostUpd an rd => Sys2Proof.Machine.execLdbtPostUpd an rd s
  | .ldbtPostIncSel an rgs => Sys2Proof.Machine.execLdbtPostIncSel an rgs s
  | .ldbtPreDecSel an rgs => Sys2Proof.Machine.execLdbtPreDecSel an rgs s
  | .ldshDirect ea rd => Sys2Proof.Machine.execLdshDirect ea rd s
  | .ldshOffset ofs an rd => Sys2Proof.Machine.execLdshOffset ofs an rd s
  | .ldshIndex rx an rd => Sys2Proof.Machine.execLdshIndex rx an rd s
  | .ldshPostInc an rd => Sys2Proof.Machine.execLdshPostInc an rd s
  | .ldshPreDec an rd => Sys2Proof.Machine.execLdshPreDec an rd s
  | .ldshPostUpd an rd => Sys2Proof.Machine.execLdshPostUpd an rd s
  | .ldshPostIncSel an rgs => Sys2Proof.Machine.execLdshPostIncSel an rgs s
  | .ldshPreDecSel an rgs => Sys2Proof.Machine.execLdshPreDecSel an rgs s
  | .stbtDirect rs ea => Sys2Proof.Machine.execStbtDirect rs ea s
  | .stbtOffset rs ofs an => Sys2Proof.Machine.execStbtOffset rs ofs an s
  | .stbtIndex rs rx an => Sys2Proof.Machine.execStbtIndex rs rx an s
  | .stbtPostInc rs an => Sys2Proof.Machine.execStbtPostInc rs an s
  | .stbtPreDec rs an => Sys2Proof.Machine.execStbtPreDec rs an s
  | .stbtPostUpd rs an => Sys2Proof.Machine.execStbtPostUpd rs an s
  | .stbtPostIncSel rgs an => Sys2Proof.Machine.execStbtPostIncSel rgs an s
  | .stbtPreDecSel rgs an => Sys2Proof.Machine.execStbtPreDecSel rgs an s
  | .stshDirect rs ea => Sys2Proof.Machine.execStshDirect rs ea s
  | .stshOffset rs ofs an => Sys2Proof.Machine.execStshOffset rs ofs an s
  | .stshIndex rs rx an => Sys2Proof.Machine.execStshIndex rs rx an s
  | .stshPostInc rs an => Sys2Proof.Machine.execStshPostInc rs an s
  | .stshPreDec rs an => Sys2Proof.Machine.execStshPreDec rs an s
  | .stshPostUpd rs an => Sys2Proof.Machine.execStshPostUpd rs an s
  | .stshPostIncSel rgs an => Sys2Proof.Machine.execStshPostIncSel rgs an s
  | .stshPreDecSel rgs an => Sys2Proof.Machine.execStshPreDecSel rgs an s
  | .jump => Sys2Proof.Machine.execJump s
  | .jpsrAbs ia => Sys2Proof.Machine.execJpsrAbs ia s
  | .jpsr => Sys2Proof.Machine.execJpsr s
  | .rtsr => Sys2Proof.Machine.execRtsr s
  | .rtir => Sys2Proof.Machine.execRtir s
  | .bral io => Sys2Proof.Machine.execBral io s
  | .brlc io => Sys2Proof.Machine.execBrlc io s
  | .brnc io sp => Sys2Proof.Machine.execBrnc io sp s
  | .brcr io sp => Sys2Proof.Machine.execBrcr io sp s
  | .brno io sp => Sys2Proof.Machine.execBrno io sp s
  | .brof io sp => Sys2Proof.Machine.execBrof io sp s
  | .brnz io sp => Sys2Proof.Machine.execBrnz io sp s
  | .brzr io sp => Sys2Proof.Machine.execBrzr io sp s
  | .brps io sp => Sys2Proof.Machine.execBrps io sp s
  | .brng io sp => Sys2Proof.Machine.execBrng io sp s
  | .brls io sp => Sys2Proof.Machine.execBrls io sp s
  | .brhi io sp => Sys2Proof.Machine.execBrhi io sp s
  | .brlo io sp => Sys2Proof.Machine.execBrlo io sp s
  | .brge io sp => Sys2Proof.Machine.execBrge io sp s
  | .brle io sp => Sys2Proof.Machine.execBrle io sp s
  | .brgt io sp => Sys2Proof.Machine.execBrgt io sp s
  | .stie => Sys2Proof.Machine.execStie s
  | .clie => Sys2Proof.Machine.execClie s
  | .scie => Sys2Proof.Machine.execScie s
  | .rsie => Sys2Proof.Machine.execRsie s
  | .svpc => Sys2Proof.Machine.execSvpc s
  | .rspc => Sys2Proof.Machine.execRspc s
  | .stop => Sys2Proof.Machine.execStop s

end Sys2Proof.Machine
end

