-- ==== Sys2Proof/Machine/Events.lean ====
section
/-! DEFINITION. What the core does at an instruction boundary: one fetched instruction, or one host event
(60_exceptions.md R430). -/

namespace Sys2Proof.Machine

/-- The `Step` event while running: fetch `IFetch(pc)`, decode, execute one instruction completely (R430). -/
def State.stepInstr (s : State) : Result :=
  Memory.instrAccess Config.imemRegions s.pc <|
    match s.fetch with
    | none => .fault (.noInstruction s.pc)
    | some w =>
      match decode w with
      | .error c => .refused (.reservedEncoding c)
      | .ok i => exec i s

/-- The core left to itself: running, it executes an instruction; stopped, it stays as it is (R57, R382, R420). -/
def State.stepCore (s : State) : Result :=
  match s.run with
  | .running => s.stepInstr
  | .stopped => .next s

/-- Whether a word may be injected, by instruction: not the six jumps and branches, the 14 conditional branches or
`stop` (R429, D20). -/
def injectable : Instr → Bool
  | .jump | .jpsrAbs .. | .jpsr | .rtsr | .rtir | .bral .. | .brlc .. | .brnc .. | .brcr .. | .brno ..
  | .brof .. | .brnz .. | .brzr .. | .brps .. | .brng .. | .brls .. | .brhi .. | .brlo .. | .brge .. | .brle ..
  | .brgt .. | .stop => false
  | .subfReg .. | .subfImm .. | .addtReg .. | .addtImm .. | .subc .. | .addc .. | .adcf .. | .sbcf ..
  | .compReg .. | .compImm .. | .cmpc .. | .cpcf .. | .addh .. | .negt .. | .absl .. | .clzr .. | .sxbt ..
  | .sxsh .. | .andbReg .. | .andbImm .. | .iorbReg .. | .iorbImm .. | .xorbReg .. | .xorbImm .. | .invt ..
  | .shlzReg .. | .shlzImm .. | .shruReg .. | .shruImm .. | .shlfReg .. | .shlfImm .. | .shrsReg ..
  | .shrsImm .. | .btclReg .. | .btclImm .. | .btstReg .. | .btstImm .. | .bttgReg .. | .bttgImm ..
  | .bttsReg .. | .bttsImm .. | .mult .. | .mlhu .. | .mlhs .. | .mlcu .. | .moveReg .. | .moveImm ..
  | .mvsr .. | .mfsr .. | .mtsrReg .. | .mtsrImm .. | .mfdp .. | .mtdp .. | .ldbtDirect .. | .ldbtOffset ..
  | .ldbtIndex .. | .ldbtPostInc .. | .ldbtPreDec .. | .ldbtPostUpd .. | .ldbtPostIncSel .. | .ldbtPreDecSel ..
  | .ldshDirect .. | .ldshOffset .. | .ldshIndex .. | .ldshPostInc .. | .ldshPreDec .. | .ldshPostUpd ..
  | .ldshPostIncSel .. | .ldshPreDecSel .. | .stbtDirect .. | .stbtOffset .. | .stbtIndex .. | .stbtPostInc ..
  | .stbtPreDec .. | .stbtPostUpd .. | .stbtPostIncSel .. | .stbtPreDecSel .. | .stshDirect .. | .stshOffset ..
  | .stshIndex .. | .stshPostInc .. | .stshPreDec .. | .stshPostUpd .. | .stshPostIncSel .. | .stshPreDecSel ..
  | .stie | .clie | .scie | .rsie | .svpc | .rspc => true

/-- Whether an instruction sets the held pc when injected: `rspc` alone (R423). -/
def setsHeldPc (i : Instr) : Bool := i == .rspc

/-- The outcome of an injected instruction, whose `pc <- pc + 1` is not performed (R423). -/
def Result.holdPc (pc : Word) : Result → Result
  | .next t => .next (t.setPc pc)
  | r => r

/-- The injection of `w`, with `data` on `DBI` when it executes (R422 to R424, R429). -/
def State.inject (s : State) (w : Opcode) (data : Option (BitVec 20)) : Result :=
  match decode w with
  | .error c => .refused (.reservedEncoding c)
  | .ok i =>
    if !injectable i then .refused .injectedFlow
    else if setsHeldPc i then exec i { s with dbi := data }
    else Result.holdPc s.pc (exec i { s with dbi := data })

/-- One host event (R430), and what becomes of one that R430 does not enable. An `Interrupt(k)` whose condition is false
has no effect (R430). The rest is the model's choice, DESIGN CHOICE (log entry 8): a `Step` or a `StopRequest` offered to a
stopped core has no effect but to use up the event; `Inject`, `Resume` and the host's memory writes offered to a running
core are refused. The vector read and the host's memory writes are bounded by the region maps (R94). -/
def State.handle (s : State) : HostEvent → Result
  | .reset irn strq => .next (s.applyReset irn strq)
  | .step => s.stepCore
  | .interrupt k =>
    if s.acknowledges then
      Memory.dataAccess Config.dmemRegions .short [s.vectorAddress k] (.next (s.takeInterrupt k))
    else .next s
  | .stopRequest => .next { s with run := .stopped }
  | .inject w data => if s.run = .stopped then s.inject w data else .refused .eventNotEnabled
  | .resume => if s.run = .stopped then .next { s with run := .running } else .refused .eventNotEnabled
  | .loadInstr a w =>
    if s.run = .stopped then Memory.instrAccess Config.imemRegions a (.next (s.putInstr a w))
    else .refused .eventNotEnabled
  | .loadData a b =>
    if s.run = .stopped then Memory.dataAccess Config.dmemRegions .byte [a] (.next (s.putByte a b))
    else .refused .eventNotEnabled
  | .driveDbi v => .next { s with dbi := v }

/-- One step: the next host event, or, when the host offers none, what the core does by itself. -/
def State.stepMachine (s : State) : Result :=
  match s.inputs with
  | [] => s.stepCore
  | e :: es => ({ s with inputs := es } : State).handle e

/-- The state in which the next step fetches `w`: the word stands at pc, the core runs, and no host event comes before
the fetch (log entry 6). -/
def State.placeWord (s : State) (w : Opcode) : State := { s.putInstr s.pc w with run := .running, inputs := [] }

end Sys2Proof.Machine
end

