-- ==== Sys2Proof/Machine/Step.lean ====
section
/-! DEFINITION. The step of the machine. -/

namespace Sys2Proof.Machine

/-- One step (R430): the next host event the host offers, or one instruction. -/
def step (s : State) : Host.Outcome State Fault Refusal := s.stepMachine

/-- `s` with the 20-bit word `w` stored where the next step fetches its instruction (log entry 6). -/
def State.withFetchWord (s : State) (_nbits w : Nat) : State := s.placeWord (BitVec.ofNat 20 w)

end Sys2Proof.Machine
end

