-- ==== Sys2Proof/WellFormed.lean ====
section
/-! DEFINITION. Well-formedness of an instruction: the spec gives it an encoding and, for its operands, a behaviour.
Field ranges hold by the types of the fields. -/

namespace Sys2Proof

/-- A register selection the spec gives a behaviour: at least one register (R190), none of them An (R189). -/
def selOk (an : AddrNum) (sel : List SelReg) : Bool := !sel.isEmpty && !Machine.selHits an sel

/-- The operand checks of R46 (a special register number names a register), R189 (the transferred register is not the
updated address register, where two writers or two readings would meet), R190 (a register selection is not empty) and
R139 (`mlcu` has a code only once `MLCU_FN3` is given). -/
def Instr.wellFormed : Instr → Bool
  | .mlcu .. => Config.mlcuFn3.isSome
  | .mfsr srs _ => (Machine.sregOf srs).isSome
  | .mtsrReg _ srd => (Machine.sregOf srd).isSome
  | .mtsrImm _ srd => (Machine.sregOf srd).isSome
  | .ldbtPostInc an rd => rd != Machine.addrReg an
  | .ldbtPreDec an rd => rd != Machine.addrReg an
  | .ldbtPostUpd an rd => rd != Machine.addrReg an
  | .ldbtPostIncSel an rgs => selOk an (Machine.selUp .byte rgs)
  | .ldbtPreDecSel an rgs => selOk an (Machine.selDown .byte rgs)
  | .ldshPostInc an rd => rd != Machine.addrReg an
  | .ldshPreDec an rd => rd != Machine.addrReg an
  | .ldshPostUpd an rd => rd != Machine.addrReg an
  | .ldshPostIncSel an rgs => selOk an (Machine.selUp .short rgs)
  | .ldshPreDecSel an rgs => selOk an (Machine.selDown .short rgs)
  | .stbtPreDec rs an => rs != Machine.addrReg an
  | .stbtPostIncSel rgs an => selOk an (Machine.selUp .byte rgs)
  | .stbtPreDecSel rgs an => selOk an (Machine.selDown .byte rgs)
  | .stshPreDec rs an => rs != Machine.addrReg an
  | .stshPostIncSel rgs an => selOk an (Machine.selUp .short rgs)
  | .stshPreDecSel rgs an => selOk an (Machine.selDown .short rgs)
  | .subfReg .. | .subfImm .. | .addtReg .. | .addtImm .. | .subc .. | .addc .. | .adcf .. | .sbcf ..
  | .compReg .. | .compImm .. | .cmpc .. | .cpcf .. | .addh .. | .negt .. | .absl .. | .clzr .. | .sxbt ..
  | .sxsh .. | .andbReg .. | .andbImm .. | .iorbReg .. | .iorbImm .. | .xorbReg .. | .xorbImm .. | .invt ..
  | .shlzReg .. | .shlzImm .. | .shruReg .. | .shruImm .. | .shlfReg .. | .shlfImm .. | .shrsReg ..
  | .shrsImm .. | .btclReg .. | .btclImm .. | .btstReg .. | .btstImm .. | .bttgReg .. | .bttgImm ..
  | .bttsReg .. | .bttsImm .. | .mult .. | .mlhu .. | .mlhs .. | .moveReg .. | .moveImm .. | .mvsr ..
  | .mfdp .. | .mtdp .. | .ldbtDirect .. | .ldbtOffset .. | .ldbtIndex .. | .ldshDirect .. | .ldshOffset ..
  | .ldshIndex .. | .stbtDirect .. | .stbtOffset .. | .stbtIndex .. | .stbtPostInc .. | .stbtPostUpd ..
  | .stshDirect .. | .stshOffset .. | .stshIndex .. | .stshPostInc .. | .stshPostUpd .. | .jump | .jpsrAbs ..
  | .jpsr | .rtsr | .rtir | .bral .. | .brlc .. | .brnc .. | .brcr .. | .brno .. | .brof .. | .brnz ..
  | .brzr .. | .brps .. | .brng .. | .brls .. | .brhi .. | .brlo .. | .brge .. | .brle .. | .brgt .. | .stie
  | .clie | .scie | .rsie | .svpc | .rspc | .stop => true

end Sys2Proof
end

