-- ==== Sys2Proof/Safety.lean ====
section
/-! DEFINITION. The terms in which claims about the machine are stated: what counts as a legal state, what an
instruction leaves as it was, and the shapes of a completed instruction. -/

namespace Sys2Proof.Machine

/-- The invariant of the machine: both memories are in canonical form (strictly rising addresses of the 64K space). -/
def State.Inv (s : State) : Prop := Memory.wf s.dmem = true ∧ Memory.wf s.imem = true

/-! ## Frames -/

/-- One observable part of the state: a register, a special register or field, a byte of data memory, the instruction
memory, a port, or a field of the model's own. -/
inductive Part where
  | reg (r : RegNum)
  | pc
  | cc
  | ivtp
  | csIs
  | csIe
  | csIr
  | lc
  | u0
  | sa
  | ia
  | ta
  | ccs
  | run
  | dbo
  | byte (a : Word)
  | imem
  | dbi
  | inputs
  | outputs
deriving DecidableEq, Repr

/-- The part reads the same in `t` as in `s`. -/
def Part.Same (p : Part) (s t : State) : Prop :=
  match p with
  | .reg r => t.reg r = s.reg r
  | .pc => t.pc = s.pc
  | .cc => t.cc = s.cc
  | .ivtp => t.ivtp = s.ivtp
  | .csIs => t.csIs = s.csIs
  | .csIe => t.csIe = s.csIe
  | .csIr => t.csIr = s.csIr
  | .lc => t.lc = s.lc
  | .u0 => t.u0 = s.u0
  | .sa => t.sa = s.sa
  | .ia => t.ia = s.ia
  | .ta => t.ta = s.ta
  | .ccs => t.ccs = s.ccs
  | .run => t.run = s.run
  | .dbo => t.dbo = s.dbo
  | .byte a => t.readByte a = s.readByte a
  | .imem => t.imem = s.imem
  | .dbi => t.dbi = s.dbi
  | .inputs => t.inputs = s.inputs
  | .outputs => t.outputs = s.outputs

/-- Every part but those listed reads the same in `t` as in `s`: every register, flag, special register, byte of memory,
port and field of the model. -/
def Kept (s t : State) (changed : List Part) : Prop := ∀ p : Part, p ∉ changed → p.Same s t

/-! ## Shapes of a completed instruction -/

/-- The instruction completes from `s`, and what it leaves satisfies `P`. -/
def Completes (i : Instr) (s : State) (P : State → Prop) : Prop := ∃ t : State, exec i s = .next t ∧ P t

/-- The next instruction is the one in sequence (R35), where the address of the instruction is not 0xFFFF (what follows
there is decision D1, stated apart). -/
def InSequence (s t : State) : Prop := s.pc.toNat < 65535 → t.pc.toNat = s.pc.toNat + 1

/-- The instruction completes; Rd is `v`; nothing else changes but pc, which goes on in sequence. -/
def Puts (i : Instr) (s : State) (rd : RegNum) (v : Word) : Prop :=
  Completes i s fun t => t.reg rd = v ∧ InSequence s t ∧ Kept s t [.reg rd, .pc]

/-- The instruction completes; Rd is `v` and CC is `f`; nothing else changes but pc, which goes on in sequence. -/
def PutsCC (i : Instr) (s : State) (rd : RegNum) (v : Word) (f : Flags) : Prop :=
  Completes i s fun t => t.reg rd = v ∧ t.cc = f ∧ InSequence s t ∧ Kept s t [.reg rd, .cc, .pc]

/-- The instruction completes; CC is `f`; nothing else changes but pc, which goes on in sequence. -/
def Tests (i : Instr) (s : State) (f : Flags) : Prop :=
  Completes i s fun t => t.cc = f ∧ InSequence s t ∧ Kept s t [.cc, .pc]

/-- The instruction completes, pc is `target`, and nothing changes but pc and the parts listed. -/
def GoesTo (i : Instr) (s : State) (target : Word) (changed : List Part) : Prop :=
  Completes i s fun t => t.pc = target ∧ Kept s t (.pc :: changed)

/-! ## Patterns of opcode words

The spec writes a pattern from bit 19 (left) to bit 0 (right); so do these, by concatenation. -/

/-- The word `w` is the instruction `i`. -/
def IsWordOf (w : Opcode) (i : Instr) : Prop := decode w = .ok i

/-- `oooo aaaa bbbb dddd ffff` (R127, R128). -/
def patR3 (o a b d f : BitVec 4) : Opcode := o ++ a ++ b ++ d ++ f

/-- `oooo oooo ssss dddd 1110` (R129). -/
def patR2 (o : BitVec 8) (s d : BitVec 4) : Opcode := o ++ s ++ d ++ 0b1110#4

/-- An 8-bit constant as its opcode bits [18:11] hold it: bits 5..0, then 7, 6 (R124). -/
def coded8 (c : BitVec 8) : BitVec 8 := c.extractLsb' 0 6 ++ c.extractLsb' 6 2

/-- A 10-bit constant as its opcode bits [18:9] hold it: bits 5..0, then 7, 6, then 9, 8 (R124). -/
def coded10 (c : BitVec 10) : BitVec 10 := c.extractLsb' 0 6 ++ c.extractLsb' 6 2 ++ c.extractLsb' 8 2

/-- An 11-bit constant as its opcode bits [18:8] hold it: bits 5..0, then 7, 6, then 9, 8, then 10 (R124). -/
def coded11 (c : BitVec 11) : BitVec 11 :=
  c.extractLsb' 0 6 ++ c.extractLsb' 6 2 ++ c.extractLsb' 8 2 ++ c.extractLsb' 10 1

/-- `1 cccccccc fff dddd 0010` (R130). -/
def patI8 (c : BitVec 8) (f : BitVec 3) (d : BitVec 4) : Opcode := 1#1 ++ coded8 c ++ f ++ d ++ 0b0010#4

/-- `1 cccccccccc e rrrr ffff` (R131). -/
def patI10 (c : BitVec 10) (e : BitVec 1) (r f : BitVec 4) : Opcode := 1#1 ++ coded10 c ++ e ++ r ++ f

/-- `10 iiiiiiiiiiiiiiii 01` (R134). -/
def patJ (i : Word) : Opcode := 0b10#2 ++ i ++ 0b01#2

/-- `11 jjjjjjjjjj hhhh 0001` (R135). -/
def patB14 (j : BitVec 14) : Opcode := 0b11#2 ++ j.extractLsb' 0 10 ++ j.extractLsb' 10 4 ++ 0b0001#4

/-- `11 jjjjjjjjjj S ccc 1 g 01` (R136). -/
def patB10 (j : BitVec 10) (s : Bool) (c : BitVec 3) (g : BitVec 1) : Opcode :=
  0b11#2 ++ j ++ BitVec.ofBool s ++ c ++ 1#1 ++ g ++ 0b01#2

/-- `11 0000000000 ssss 0101` (R137). -/
def patIMP (s : BitVec 4) : Opcode := 0b11#2 ++ 0#10 ++ s ++ 0b0101#4

/-- `0 eeeeeeeeeee rrrr LS 00` (R132). -/
def patMD (e : BitVec 11) (r : BitVec 4) (ls : BitVec 2) : Opcode := 0#1 ++ coded11 e ++ r ++ ls ++ 0b00#2

/-- `0 oooooooo nnn rrrr LS 01` (R132). -/
def patMO (o : BitVec 8) (n : BitVec 3) (r : BitVec 4) (ls : BitVec 2) : Opcode :=
  0#1 ++ coded8 o ++ n ++ r ++ ls ++ 0b01#2

/-- `1000 xxxx 0 nnn rrrr LS 00` and `oooo 0000 b nnn rrrr LS 00` (R132). -/
def patMA (o x : BitVec 4) (b : BitVec 1) (n : BitVec 3) (r : BitVec 4) (ls : BitVec 2) : Opcode :=
  o ++ x ++ b ++ n ++ r ++ ls ++ 0b00#2

/-- `11 gggggg b nnn gggg LS 00` (R132, R133). -/
def patMG (g : BitVec 10) (b : BitVec 1) (n : BitVec 3) (ls : BitVec 2) : Opcode :=
  0b11#2 ++ g.extractLsb' 4 6 ++ b ++ n ++ g.extractLsb' 0 4 ++ ls ++ 0b00#2

/-! ## Words of the spec -/

/-- The carry C of an instruction as the number 0 or 1. -/
def carryIn (s : State) : Word := if s.cc.c then 1#16 else 0#16

/-- `AddC(x, y, r)` as R291 prints it. -/
def carryRule (x y r : Word) : Bool :=
  (x.getLsbD 15 && y.getLsbD 15) || (x.getLsbD 15 && !r.getLsbD 15) || (y.getLsbD 15 && !r.getLsbD 15)

/-- `AddO(x, y, r)` as R291 prints it. -/
def addOverflowRule (x y r : Word) : Bool :=
  (x.getLsbD 15 && y.getLsbD 15 && !r.getLsbD 15) || (!x.getLsbD 15 && !y.getLsbD 15 && r.getLsbD 15)

/-- `SubC(x, y, r)` as R291 prints it. -/
def borrowRule (x y r : Word) : Bool :=
  (!x.getLsbD 15 && y.getLsbD 15) || (!x.getLsbD 15 && r.getLsbD 15) || (y.getLsbD 15 && r.getLsbD 15)

/-- `SubO(x, y, r)` as R291 prints it. -/
def subOverflowRule (x y r : Word) : Bool :=
  (x.getLsbD 15 && !y.getLsbD 15 && !r.getLsbD 15) || (!x.getLsbD 15 && y.getLsbD 15 && r.getLsbD 15)

/-- N, Z, O, C after an addition x + y with result r, Z plain (R272, R291). -/
def afterAdd (x y r : Word) : Flags := ⟨r.getLsbD 15, r == 0#16, addOverflowRule x y r, carryRule x y r⟩

/-- N, Z, O, C after a subtraction x - y with result r, Z plain (R279, R287, R291). -/
def afterSub (x y r : Word) : Flags := ⟨r.getLsbD 15, r == 0#16, subOverflowRule x y r, borrowRule x y r⟩

/-- The same flags with the Z of the with-carry instructions: `Z <- Z & (r == 0)` (R292). -/
def chainedZ (old f : Flags) : Flags := { f with z := old.z && f.z }

/-- The value of a signed 16-bit sum fits in 16 bits: it lies in -32768..32767. -/
def FitsSigned (v : Int) : Prop := -32768 ≤ v ∧ v ≤ 32767

/-- What the flags `f` say in integers after x + y + c with the 16-bit result r: C that the unsigned sum carries out of
bit 15, O that the signed sum is out of range, N that the result is negative, Z that it is zero and that `z` held. -/
def MeansSum (f : Flags) (x y c r : Word) (z : Prop) : Prop :=
  (f.c = true ↔ 65536 ≤ x.toNat + y.toNat + c.toNat) ∧ (f.o = true ↔ ¬ FitsSigned (x.toInt + y.toInt + c.toInt)) ∧
    (f.n = true ↔ r.toInt < 0) ∧ (f.z = true ↔ z ∧ r = 0#16)

/-- What the flags `f` say in integers after x - y - c with the 16-bit result r: C that the unsigned difference borrows,
O that the signed difference is out of range, N that the result is negative, Z that it is zero and that `z` held. -/
def MeansDifference (f : Flags) (x y c r : Word) (z : Prop) : Prop :=
  (f.c = true ↔ x.toNat < y.toNat + c.toNat) ∧ (f.o = true ↔ ¬ FitsSigned (x.toInt - y.toInt - c.toInt)) ∧
    (f.n = true ↔ r.toInt < 0) ∧ (f.z = true ↔ z ∧ r = 0#16)

/-- The bytes a 16-bit access goes to: the aligned short that holds byte address `a` (R89, R90). -/
def shortBytes (a : Word) : List Part := [.byte (a &&& 0xFFFE#16), .byte ((a &&& 0xFFFE#16) + 1#16)]

/-- The bytes an access of a size goes to. -/
def accessBytes (sz : Size) (a : Word) : List Part :=
  match sz with
  | .byte => [.byte a]
  | .short => shortBytes a

/-- Every byte of the access is memory under the region map `m` (R94). -/
def InMemory (m : Config.Regions) (sz : Size) (a : Word) : Prop :=
  ∀ b : Word, .byte b ∈ accessBytes sz a → Memory.kindAt m b = some .memory

/-- Some byte of the access is in no region of `m`. -/
def TouchesNothing (m : Config.Regions) (sz : Size) (a : Word) : Prop :=
  ∃ b : Word, .byte b ∈ accessBytes sz a ∧ Memory.kindAt m b = none

/-- Some byte of the access is a device's. -/
def TouchesDevice (m : Config.Regions) (sz : Size) (a : Word) : Prop :=
  ∃ b : Word, .byte b ∈ accessBytes sz a ∧ Memory.kindAt m b = some .device

/-- The access is barred under `m`, and `q` names why: a byte in no region, else a byte of a device (R94, D10). -/
def BarredBy (m : Config.Regions) (sz : Size) (a : Word) (q : Refusal) : Prop :=
  (TouchesNothing m sz a ∧ q = .unpopulatedData a) ∨
    (¬ TouchesNothing m sz a ∧ TouchesDevice m sz a ∧ q = .deviceAccess a)

/-- `f`, which makes n accesses at `at_ 0`, `at_ 1`, … under a region map, is as under the default map where all go to
memory, and is refused at the first that is barred. -/
def BoundedBy (m : Config.Regions) (sz : Size) (n : Nat) (at_ : Nat → Word) (f : Config.Regions → Result) : Prop :=
  ((∀ k : Nat, k < n → InMemory m sz (at_ k)) → f m = f Config.dmemRegions) ∧
    ∀ (k : Nat) (q : Refusal), k < n → (∀ j : Nat, j < k → InMemory m sz (at_ j)) → BarredBy m sz (at_ k) q →
      f m = .refused q

/-- What a load of a size reads at `a`: the byte zero-extended (R86), or the little-endian short at the even address
(R87, R90). -/
def Reads (s : State) (sz : Size) (a v : Word) : Prop :=
  match sz with
  | .byte => v.toNat = (s.readByte a).toNat
  | .short =>
    v.toNat = (s.readByte (a &&& 0xFFFE#16)).toNat + 256 * (s.readByte ((a &&& 0xFFFE#16) + 1#16)).toNat

/-- The size in bytes of an operand (R9). -/
def bytesOf : Size → Word
  | .byte => 1#16
  | .short => 2#16

/-- `l` is the register selection that the flags `rgs` make from the registers of `order`: its members stand in that
order, and a set flag selects the register, a clear flag leaves it out (R133, R181, R182). -/
def Selects (order : List SelReg) (rgs : BitVec 10) (l : List SelReg) : Prop :=
  l.Sublist order ∧ ∀ (k : Nat) (r : SelReg), order[k]? = some r → (r ∈ l ↔ rgs.getLsbD k = true)

/-- The registers of an (An)+ selection in their fixed order: R0/SA, R2 to R7, R1/R9, RC/RA, RD/RB (R181). -/
def ascending : Size → List SelReg
  | .byte => [.gpr 0, .gpr 2, .gpr 3, .gpr 4, .gpr 5, .gpr 6, .gpr 7, .gpr 1, .gpr 12, .gpr 13]
  | .short => [.sa, .gpr 2, .gpr 3, .gpr 4, .gpr 5, .gpr 6, .gpr 7, .gpr 9, .gpr 10, .gpr 11]

/-- The registers of a -(An) selection in their fixed order: RD/RB, RC/RA, R1/R9, R7 to R2, R0/SA (R182). -/
def descending (sz : Size) : List SelReg := (ascending sz).reverse

/-- The part of the state that a member of a register selection is. -/
def selPart : SelReg → Part
  | .gpr r => .reg r
  | .sa => .sa

/-- The instruction loads into Rd the operand of size `sz` at `eda`; An is not changed; the bus shows one read. -/
def LoadsFrom (i : Instr) (s : State) (sz : Size) (eda : Word) (rd : RegNum) : Prop :=
  Completes i s fun t =>
    Reads s sz eda (t.reg rd) ∧ t.outputs = .read sz eda (t.reg rd) :: s.outputs ∧ InSequence s t ∧
      Kept s t [.reg rd, .pc, .outputs]

/-- The instruction loads into Rd the operand of size `sz` at `eda` and leaves `newA` in An. -/
def LoadsUpdating (i : Instr) (s : State) (sz : Size) (eda : Word) (an : RegNum) (newA : Word) (rd : RegNum) : Prop :=
  Completes i s fun t =>
    Reads s sz eda (t.reg rd) ∧ t.reg an = newA ∧ t.outputs = .read sz eda (t.reg rd) :: s.outputs ∧
      InSequence s t ∧ Kept s t [.reg rd, .reg an, .pc, .outputs]

/-- After a store of size `sz` of the value `v` at `eda`, memory holds it there and is otherwise as it was; the bus
shows one write of the bits stored (R88, R89, R90). -/
def Stored (s t : State) (sz : Size) (eda v : Word) : Prop :=
  match sz with
  | .byte => t.readByte eda = v.extractLsb' 0 8 ∧
      t.outputs = .write .byte eda (v &&& 0x00FF#16) :: s.outputs
  | .short => t.readByte (eda &&& 0xFFFE#16) = v.extractLsb' 0 8 ∧
      t.readByte ((eda &&& 0xFFFE#16) + 1#16) = v.extractLsb' 8 8 ∧
      t.outputs = .write .short eda v :: s.outputs

/-- The instruction stores the value `v` of size `sz` at `eda`; no register changes. -/
def StoresTo (i : Instr) (s : State) (sz : Size) (eda v : Word) : Prop :=
  Completes i s fun t =>
    Stored s t sz eda v ∧ InSequence s t ∧ Kept s t ([.pc, .outputs] ++ accessBytes sz eda)

/-- The instruction stores the value `v` of size `sz` at `eda` and leaves `newA` in An. -/
def StoresUpdating (i : Instr) (s : State) (sz : Size) (eda : Word) (an : RegNum) (newA v : Word) : Prop :=
  Completes i s fun t =>
    Stored s t sz eda v ∧ t.reg an = newA ∧ InSequence s t ∧
      Kept s t ([.reg an, .pc, .outputs] ++ accessBytes sz eda)

/-- An RGS load of the registers `l` with An = `an`: the k-th register holds the operand at `at k`, An holds `newA`, the
bus shows the reads one by one in that order (the latest output stands first), and nothing else changes but pc
(R91, R97). -/
def LoadsSelection (i : Instr) (s : State) (sz : Size) (an : RegNum) (l : List SelReg) (at_ : Nat → Word)
    (newA : Word) : Prop :=
  Completes i s fun t =>
    (∀ (k : Nat) (r : SelReg), l[k]? = some r → Reads s sz (at_ k) (t.sel r)) ∧ t.reg an = newA ∧
      t.outputs = (l.mapIdx fun k r => .read sz (at_ k) (t.sel r)).reverse ++ s.outputs ∧ InSequence s t ∧
      Kept s t ([.reg an, .pc, .outputs] ++ l.map selPart)

/-- The bits of a register that a store of a size writes: a byte store discards the 8 MSBs (R88). -/
def storedBits : Size → Word → Word
  | .byte, v => v &&& 0x00FF#16
  | .short, v => v

/-- An RGS store of the registers `l` with An = `an`: memory holds the k-th register at `at k`, An holds `newA`, the bus
shows the writes one by one in that order (the latest output stands first), and nothing else changes but pc
(R91, R97). -/
def StoresSelection (i : Instr) (s : State) (sz : Size) (an : RegNum) (l : List SelReg) (at_ : Nat → Word)
    (newA : Word) : Prop :=
  Completes i s fun t =>
    (∀ (k : Nat) (r : SelReg), l[k]? = some r →
      match sz with
      | .byte => t.readByte (at_ k) = (s.sel r).extractLsb' 0 8
      | .short => t.readByte (at_ k &&& 0xFFFE#16) = (s.sel r).extractLsb' 0 8 ∧
          t.readByte ((at_ k &&& 0xFFFE#16) + 1#16) = (s.sel r).extractLsb' 8 8) ∧
      t.reg an = newA ∧
      t.outputs = (l.mapIdx fun k r => .write sz (at_ k) (storedBits sz (s.sel r))).reverse ++ s.outputs ∧
      InSequence s t ∧
      Kept s t ([.reg an, .pc, .outputs] ++ (List.range l.length).flatMap fun k => accessBytes sz (at_ k))

/-- A conditional branch: from `s`, with condition `cnd`, to `pc + offset` or to the next instruction; nothing else
changes (R346). -/
def Branches (i : Instr) (s : State) (cnd : Prop) (offset : BitVec 10) : Prop :=
  Completes i s fun t =>
    (cnd → t.pc = s.pc + offset.signExtend 16) ∧ (¬ cnd → InSequence s t) ∧ Kept s t [.pc]

/-- The twenty instructions that set pc from the program (R429): six jumps and branches by mnemonic, `jpsr` in its two
forms, and the 14 conditional branches. -/
def SetsPc (i : Instr) : Prop :=
  i = .jump ∨ i = .jpsr ∨ (∃ ia : Word, i = .jpsrAbs ia) ∨ i = .rtsr ∨ i = .rtir ∨
    (∃ io : BitVec 14, i = .bral io) ∨ (∃ io : BitVec 10, i = .brlc io) ∨
    ∃ (io : BitVec 10) (sp : Bool),
      i = .brnc io sp ∨ i = .brcr io sp ∨ i = .brno io sp ∨ i = .brof io sp ∨ i = .brnz io sp ∨ i = .brzr io sp ∨
        i = .brps io sp ∨ i = .brng io sp ∨ i = .brls io sp ∨ i = .brhi io sp ∨ i = .brlo io sp ∨ i = .brge io sp ∨
        i = .brle io sp ∨ i = .brgt io sp

/-- From `t`, the branches decide the relation of `x` to `y`, unsigned and signed, as the table of R349 says. -/
def DecidesBranches {n : Nat} (t : State) (io : BitVec 10) (sp : Bool) (x y : BitVec n) : Prop :=
  Branches (.brcr io sp) t (x.toNat < y.toNat) io ∧ Branches (.brlo io sp) t (x.toInt < y.toInt) io ∧
  Branches (.brls io sp) t (x.toNat ≤ y.toNat) io ∧ Branches (.brle io sp) t (x.toInt ≤ y.toInt) io ∧
  Branches (.brhi io sp) t (x.toNat > y.toNat) io ∧ Branches (.brgt io sp) t (x.toInt > y.toInt) io ∧
  Branches (.brnc io sp) t (x.toNat ≥ y.toNat) io ∧ Branches (.brge io sp) t (x.toInt ≥ y.toInt) io ∧
  Branches (.brzr io sp) t (x = y) io ∧ Branches (.brnz io sp) t (x ≠ y) io

end Sys2Proof.Machine
end

