-- ==== Sys2Proof/Certificates/Slice0/Obligations.lean ====
section
/-! DEFINITION. The statements about the machine. A statement whose docstring names a log entry rests on a choice of the
spec's decision table or of the model. -/

open Sys2Proof Sys2Proof.Machine

/-! ## Encoding -/

/-- The opcode table has 112 rows and no word of 20 bits is covered by two of them (R120, R122). -/
def Obligations.OpcodeRowsAreDisjoint : Prop :=
  codedRows.length = 112 ∧ ∀ w : Opcode, (codedRows.filter (·.covers w)).length ≤ 1

/-- Decoding the word of an instruction gives the instruction back, every operand at every value, for each value of the
open parameter `MLCU_FN3`; and every well-formed instruction has a word (R122, R138, R140). -/
def Obligations.DecodeInvertsEncode : Prop :=
  (∀ (p : Option Config.MlcuFn3) (i : Instr) (w : Opcode), encodeWith p i = some w → decodeWith p w = .ok i) ∧
    ∀ i : Instr, i.wellFormed = true → ∃ w : Opcode, encode i = some w

/-- A word that decodes is the word of the instruction it decodes to: no instruction has two words, and no bit of a word
is ignored (R122, R138, R140; for each value of the open parameter `MLCU_FN3`). -/
def Obligations.EncodeInvertsDecode : Prop :=
  ∀ (p : Option Config.MlcuFn3) (w : Opcode) (i : Instr), decodeWith p w = .ok i → encodeWith p i = some w

/-- The worked encodings of R148: every row of its table, which the spec derives from its rules. That the coded byte of
`addh` stands in its word like a C8 constant is decision D5 (log entry 14). -/
def Obligations.WorkedEncodingsDecode : Prop :=
  IsWordOf 0x1123A#20 (.addtReg 1 2 3) ∧ IsWordOf 0xCB142#20 (.addtImm 0xA5 4) ∧ IsWordOf 0xA4332#20 (.addh 0x12 3) ∧
  IsWordOf 0xFDE56#20 (.moveImm 0x3FE 5) ∧ IsWordOf 0xE8236#20 (.moveImm 0x134 3) ∧ IsWordOf 0x8000E#20 (.mtsrImm 0 0) ∧
  IsWordOf 0xC000A#20 (.compImm 32 0) ∧ IsWordOf 0x00214#20 (.ldshDirect 0x100 1) ∧
  IsWordOf 0x7DF14#20 (.ldshDirect 0x7FE 1) ∧ IsWordOf 0x7F829#20 (.stbtOffset 2 0xFF 0) ∧
  IsWordOf 0x83140#20 (.ldbtIndex 3 1 4) ∧ IsWordOf 0xF880C#20 (.stshPreDecSel 0b1110000000 0) ∧
  IsWordOf 0xC0074#20 (.ldshPostIncSel 0 0b0000000111) ∧ IsWordOf 0x848D1#20 (.jpsrAbs 0x1234) ∧
  IsWordOf 0xFFDF1#20 (.bral 0x3FFD) ∧ IsWordOf 0xE3441#20 (.bral 0x1234) ∧ IsWordOf 0xC05D9#20 (.brzr 5 true) ∧
  IsWordOf 0xFFE7D#20 (.brlc 0x3FE) ∧ IsWordOf 0xC0035#20 .rtir ∧ IsWordOf 0xC0045#20 .stop ∧
  IsWordOf 0x52F0E#20 (.mfsr 15 0) ∧ IsWordOf 0x5F706#20 (.bttsImm 15 7) ∧ IsWordOf 0x04126#20 (.shlzImm 4 1 2)

/-- Every load and store form is read from its pattern of R132, An, the register, the constant and the RGS flags each
from its own bits. -/
def Obligations.LoadStorePatternsDecode : Prop :=
  ∀ (r x : RegNum) (n : AddrNum) (e : BitVec 11) (o : BitVec 8) (g : BitVec 10),
    IsWordOf (patMD e r 0b00) (.ldbtDirect e r) ∧ IsWordOf (patMD e r 0b01) (.ldshDirect e r) ∧
    IsWordOf (patMD e r 0b10) (.stbtDirect r e) ∧ IsWordOf (patMD e r 0b11) (.stshDirect r e) ∧
    IsWordOf (patMO o n r 0b00) (.ldbtOffset o n r) ∧ IsWordOf (patMO o n r 0b01) (.ldshOffset o n r) ∧
    IsWordOf (patMO o n r 0b10) (.stbtOffset r o n) ∧ IsWordOf (patMO o n r 0b11) (.stshOffset r o n) ∧
    IsWordOf (patMA 0b1000 x 0 n r 0b00) (.ldbtIndex x n r) ∧ IsWordOf (patMA 0b1000 x 0 n r 0b01) (.ldshIndex x n r) ∧
    IsWordOf (patMA 0b1000 x 0 n r 0b10) (.stbtIndex r x n) ∧ IsWordOf (patMA 0b1000 x 0 n r 0b11) (.stshIndex r x n) ∧
    IsWordOf (patMA 0b1010 0 0 n r 0b00) (.ldbtPostInc n r) ∧ IsWordOf (patMA 0b1010 0 0 n r 0b01) (.ldshPostInc n r) ∧
    IsWordOf (patMA 0b1010 0 0 n r 0b10) (.stbtPostInc r n) ∧ IsWordOf (patMA 0b1010 0 0 n r 0b11) (.stshPostInc r n) ∧
    IsWordOf (patMA 0b1010 0 1 n r 0b00) (.ldbtPreDec n r) ∧ IsWordOf (patMA 0b1010 0 1 n r 0b01) (.ldshPreDec n r) ∧
    IsWordOf (patMA 0b1010 0 1 n r 0b10) (.stbtPreDec r n) ∧ IsWordOf (patMA 0b1010 0 1 n r 0b11) (.stshPreDec r n) ∧
    IsWordOf (patMA 0b1011 0 0 n r 0b00) (.ldbtPostUpd n r) ∧ IsWordOf (patMA 0b1011 0 0 n r 0b01) (.ldshPostUpd n r) ∧
    IsWordOf (patMA 0b1011 0 0 n r 0b10) (.stbtPostUpd r n) ∧ IsWordOf (patMA 0b1011 0 0 n r 0b11) (.stshPostUpd r n) ∧
    IsWordOf (patMG g 0 n 0b00) (.ldbtPostIncSel n g) ∧ IsWordOf (patMG g 0 n 0b01) (.ldshPostIncSel n g) ∧
    IsWordOf (patMG g 0 n 0b10) (.stbtPostIncSel g n) ∧ IsWordOf (patMG g 0 n 0b11) (.stshPostIncSel g n) ∧
    IsWordOf (patMG g 1 n 0b00) (.ldbtPreDecSel n g) ∧ IsWordOf (patMG g 1 n 0b01) (.ldshPreDecSel n g) ∧
    IsWordOf (patMG g 1 n 0b10) (.stbtPreDecSel g n) ∧ IsWordOf (patMG g 1 n 0b11) (.stshPreDecSel g n)

/-- The classes of reserved words of R142 are words of no instruction (decision D3, log entry 17; both candidate codes of
`mlcu` among them, D16, log entry 12). -/
def Obligations.ReservedClassesDecodeToNothing : Prop :=
  ∀ w : Opcode,
    let low2 := w.extractLsb' 0 2
    let low4 := w.extractLsb' 0 4
    let top2 := w.extractLsb' 18 2
    let op := w.extractLsb' 16 4
    let sub := w.extractLsb' 12 4
    let b := w.extractLsb' 8 4
    let d := w.extractLsb' 4 4
    let mid := w.extractLsb' 8 10
    (low2 = 0b11#2 ∨
      (low2 = 0b00#2 ∧ ((op = 0b1000#4 ∧ w.getLsbD 11 = true) ∨ op = 0b1001#4 ∨ (op = 0b1010#4 ∧ sub ≠ 0#4) ∨
        (op = 0b1011#4 ∧ (sub ≠ 0#4 ∨ w.getLsbD 11 = true)))) ∨
      (top2 = 0b11#2 ∧ low4 = 0b0101#4 ∧ (mid ≠ 0#10 ∨ d ∈ [0b0101#4, 0b1100#4, 0b1101#4, 0b1110#4, 0b1111#4])) ∨
      (top2 = 0b11#2 ∧ (w.extractLsb' 0 7 = 0b0101101#7 ∨ w.extractLsb' 0 8 = 0b11111101#8)) ∨
      (low4 = 0b1010#4 ∧ op = 0b0100#4) ∨
      (low4 = 0b1010#4 ∧ w.getLsbD 19 = true ∧ w.getLsbD 8 = true) ∨
      (low4 = 0b1110#4 ∧ (op ∈ [0b0001#4, 0b0110#4, 0b0111#4] ∨
        (op = 0b0100#4 ∧ sub ∈ [0b0001#4, 0b1011#4, 0b1100#4, 0b1101#4, 0b1110#4, 0b1111#4]) ∨
        (op = 0b0101#4 ∧ sub ∈ [0b0100#4, 0b0101#4, 0b0110#4, 0b0111#4, 0b1010#4, 0b1011#4, 0b1100#4, 0b1101#4,
          0b1110#4, 0b1111#4]) ∨
        (op = 0b0100#4 ∧ sub = 0b1010#4 ∧ d ≠ 0#4) ∨ (op = 0b0101#4 ∧ sub = 0b0001#4 ∧ d ≠ 0#4) ∨
        (op = 0b0101#4 ∧ sub = 0b0000#4 ∧ b ≠ 0#4))) ∨
      (low4 = 0b1110#4 ∧ w.getLsbD 19 = true ∧ w.getLsbD 8 = true) ∨
      (low4 = 0b0010#4 ∧ w.getLsbD 19 = true ∧ w.extractLsb' 8 3 ∈ [0b010#3, 0b100#3]) ∨
      (low4 ∈ [0b0010#4, 0b0110#4] ∧ op = 0b0101#4 ∧ d ≠ 0#4)) →
    ∃ c : ReservedClass, decode w = .error c

/-! ## The step -/

/-- With a core that runs, an instruction word at pc and nothing offered by the host, or a `Step` event, the step is the
execution of the instruction the word decodes to (R15, R82, R430). -/
def Obligations.StepRunsDecodedInstruction : Prop :=
  ∀ (s : State) (w : Opcode) (i : Instr),
    s.run = .running → Memory.find s.pc.toNat s.imem = some w → decode w = .ok i →
      (s.inputs = [] → step s = exec i s) ∧
      ∀ es : List HostEvent, s.inputs = .step :: es → step s = exec i { s with inputs := es }

/-- A running core stops with a fault where no word was loaded (log entry 5), and is refused where the word is reserved
(log entry 17); a stopped core fetches nothing and stays as it is (log entry 26), and a `Step` event offered to it is used
up without effect (the model's choice: log entry 8). -/
def Obligations.StepWithoutInstruction : Prop :=
  ∀ s : State,
    (s.inputs = [] → s.run = .running → Memory.find s.pc.toNat s.imem = none →
      step s = .fault (.noInstruction s.pc)) ∧
    (s.inputs = [] → s.run = .running → ∀ (w : Opcode) (c : ReservedClass), Memory.find s.pc.toNat s.imem = some w →
      decode w = .error c → step s = .refused (.reservedEncoding c)) ∧
    (s.inputs = [] → s.run = .stopped → step s = .next s) ∧
    ∀ es : List HostEvent, s.inputs = .step :: es → s.run = .stopped → step s = .next { s with inputs := es }

/-- No instruction traps: every well-formed instruction completes from every state, and so does `mlcu`; only `rtir` asks
for something, CS.IR = 1, and so do `mfdp` and `rspc`, a driven debug input (R400, R216, R290, R256, R347; decisions D12
and D19: log entries 20 and 10). That loads complete at bytes nothing has written, and at every address, is the model's
choice among those of D10 and R94 (log entries 4 and 15). -/
def Obligations.WellFormedInstructionsComplete : Prop :=
  ∀ (i : Instr) (s : State),
    (i.wellFormed = true ∨ ∃ (c8 : BitVec 8) (rb : RegNum), i = .mlcu c8 rb) → (i = .rtir → s.csIr = true) →
      (i = .rspc ∨ (∃ rd : RegNum, i = .mfdp rd) → ∃ v : BitVec 20, s.dbi = some v) →
      ∃ t : State, exec i s = .next t

/-- Every instruction that is no jump, branch, return or `rspc` goes on to pc + 1, modulo 2^16: after 0xFFFF comes 0x0000
(R35, R192, R290; the wrap is decision D1, log entry 16). -/
def Obligations.OtherInstructionsAdvancePc : Prop :=
  ∀ (i : Instr) (s t : State), exec i s = .next t → ¬ SetsPc i → i ≠ .rspc → t.pc = s.pc + 1#16

/-! ## Arithmetic -/

/-- `addt`, `addc`, `adcf`: the sum and the four flags; nothing else changes but pc (R271, R272, R273). -/
def Obligations.AdditionsWriteSumAndFlags : Prop :=
  ∀ (s : State) (rs0 rs1 rd rb : RegNum) (c8 : BitVec 8),
    IsWordOf (patR3 0b0001 rs0 rs1 rd 0b1010) (.addtReg rs0 rs1 rd) ∧
    PutsCC (.addtReg rs0 rs1 rd) s rd (s.reg rs1 + s.reg rs0)
      (afterAdd (s.reg rs1) (s.reg rs0) (s.reg rs1 + s.reg rs0)) ∧
    IsWordOf (patI8 c8 0b001 rb) (.addtImm c8 rb) ∧
    PutsCC (.addtImm c8 rb) s rb (s.reg rb + c8.setWidth 16)
      (afterAdd (s.reg rb) (c8.setWidth 16) (s.reg rb + c8.setWidth 16)) ∧
    IsWordOf (patR3 0b0011 rs0 rs1 rd 0b1010) (.addc rs0 rs1 rd) ∧
    PutsCC (.addc rs0 rs1 rd) s rd (s.reg rs1 + s.reg rs0 + carryIn s)
      (chainedZ s.cc (afterAdd (s.reg rs1) (s.reg rs0) (s.reg rs1 + s.reg rs0 + carryIn s))) ∧
    IsWordOf (patR2 0b01001001 rs0 rd) (.adcf rs0 rd) ∧
    PutsCC (.adcf rs0 rd) s rd (s.reg rs0 + carryIn s)
      (chainedZ s.cc (afterAdd (s.reg rs0) 0#16 (s.reg rs0 + carryIn s)))

/-- `subf`, `subc`, `sbcf`: src1 - src0 and the four flags; nothing else changes but pc (R285, R286, R287). -/
def Obligations.SubtractionsWriteDifferenceAndFlags : Prop :=
  ∀ (s : State) (rs0 rs1 rd rb : RegNum) (c8 : BitVec 8),
    IsWordOf (patR3 0b0000 rs0 rs1 rd 0b1010) (.subfReg rs0 rs1 rd) ∧
    PutsCC (.subfReg rs0 rs1 rd) s rd (s.reg rs1 - s.reg rs0)
      (afterSub (s.reg rs1) (s.reg rs0) (s.reg rs1 - s.reg rs0)) ∧
    IsWordOf (patI8 c8 0b000 rb) (.subfImm c8 rb) ∧
    PutsCC (.subfImm c8 rb) s rb (s.reg rb - c8.setWidth 16)
      (afterSub (s.reg rb) (c8.setWidth 16) (s.reg rb - c8.setWidth 16)) ∧
    IsWordOf (patR3 0b0010 rs0 rs1 rd 0b1010) (.subc rs0 rs1 rd) ∧
    PutsCC (.subc rs0 rs1 rd) s rd (s.reg rs1 - s.reg rs0 - carryIn s)
      (chainedZ s.cc (afterSub (s.reg rs1) (s.reg rs0) (s.reg rs1 - s.reg rs0 - carryIn s))) ∧
    IsWordOf (patR2 0b01001000 rs0 rd) (.sbcf rs0 rd) ∧
    PutsCC (.sbcf rs0 rd) s rd (s.reg rs0 - carryIn s)
      (chainedZ s.cc (afterSub (s.reg rs0) 0#16 (s.reg rs0 - carryIn s)))

/-- `comp`, `cmpc`, `cpcf`: the flags of src1 - src0; no register is written (R278, R279, R280). -/
def Obligations.ComparisonsWriteFlagsOnly : Prop :=
  ∀ (s : State) (rs0 rs1 : RegNum) (c10 : BitVec 10),
    IsWordOf (patR2 0b01011000 rs0 rs1) (.compReg rs0 rs1) ∧
    Tests (.compReg rs0 rs1) s (afterSub (s.reg rs1) (s.reg rs0) (s.reg rs1 - s.reg rs0)) ∧
    IsWordOf (patI10 c10 0 rs1 0b1010) (.compImm c10 rs1) ∧
    Tests (.compImm c10 rs1) s (afterSub (s.reg rs1) (c10.signExtend 16) (s.reg rs1 - c10.signExtend 16)) ∧
    IsWordOf (patR2 0b01011001 rs0 rs1) (.cmpc rs0 rs1) ∧
    Tests (.cmpc rs0 rs1) s
      (chainedZ s.cc (afterSub (s.reg rs1) (s.reg rs0) (s.reg rs1 - s.reg rs0 - carryIn s))) ∧
    IsWordOf (patR2 0b01001010 rs0 0) (.cpcf rs0) ∧
    Tests (.cpcf rs0) s (chainedZ s.cc (afterSub (s.reg rs0) 0#16 (s.reg rs0 - carryIn s)))

/-- What the flags of every addition, subtraction and comparison mean in integers, in register and constant forms: C is the
carry out of bit 15 or the borrow, O says that the signed result is out of range, N is the sign and Z the zero of the
result, with the Z before it in the with-carry forms (R291, R292, derived in the spec). -/
def Obligations.FlagsMeanCarryBorrowAndOverflow : Prop :=
  ∀ (s : State) (rs0 rs1 rd rb : RegNum) (c8 : BitVec 8) (c10 : BitVec 10),
    (Completes (.addtReg rs0 rs1 rd) s fun t => MeansSum t.cc (s.reg rs1) (s.reg rs0) 0#16 (t.reg rd) True) ∧
    (Completes (.addtImm c8 rb) s fun t => MeansSum t.cc (s.reg rb) (c8.setWidth 16) 0#16 (t.reg rb) True) ∧
    (Completes (.addc rs0 rs1 rd) s fun t =>
      MeansSum t.cc (s.reg rs1) (s.reg rs0) (carryIn s) (t.reg rd) (s.cc.z = true)) ∧
    (Completes (.adcf rs0 rd) s fun t => MeansSum t.cc (s.reg rs0) 0#16 (carryIn s) (t.reg rd) (s.cc.z = true)) ∧
    (Completes (.subfReg rs0 rs1 rd) s fun t => MeansDifference t.cc (s.reg rs1) (s.reg rs0) 0#16 (t.reg rd) True) ∧
    (Completes (.subfImm c8 rb) s fun t => MeansDifference t.cc (s.reg rb) (c8.setWidth 16) 0#16 (t.reg rb) True) ∧
    (Completes (.subc rs0 rs1 rd) s fun t =>
      MeansDifference t.cc (s.reg rs1) (s.reg rs0) (carryIn s) (t.reg rd) (s.cc.z = true)) ∧
    (Completes (.sbcf rs0 rd) s fun t =>
      MeansDifference t.cc (s.reg rs0) 0#16 (carryIn s) (t.reg rd) (s.cc.z = true)) ∧
    (Completes (.compReg rs0 rs1) s fun t =>
      MeansDifference t.cc (s.reg rs1) (s.reg rs0) 0#16 (s.reg rs1 - s.reg rs0) True) ∧
    (Completes (.compImm c10 rs1) s fun t =>
      MeansDifference t.cc (s.reg rs1) (c10.signExtend 16) 0#16 (s.reg rs1 - c10.signExtend 16) True) ∧
    (Completes (.cmpc rs0 rs1) s fun t => MeansDifference t.cc (s.reg rs1) (s.reg rs0) (carryIn s)
      (s.reg rs1 - s.reg rs0 - carryIn s) (s.cc.z = true)) ∧
    Completes (.cpcf rs0) s fun t =>
      MeansDifference t.cc (s.reg rs0) 0#16 (carryIn s) (s.reg rs0 - carryIn s) (s.cc.z = true)

/-- `addt` then `addc` add 32 bits, `subf` then `subc` subtract 32 bits, and the flags left describe the 32-bit result
(R293, derived in the spec). The register of the low result is none of the registers of the high half. -/
def Obligations.TwoWordAdditionAndSubtraction : Prop :=
  ∀ (s : State) (lo0 lo1 lo hi0 hi1 hi : RegNum) (a b : BitVec 32),
    lo ≠ hi0 → lo ≠ hi1 → lo ≠ hi → a = s.reg hi1 ++ s.reg lo1 → b = s.reg hi0 ++ s.reg lo0 →
    (Completes (.addtReg lo0 lo1 lo) s fun t => Completes (.addc hi0 hi1 hi) t fun u =>
      u.reg hi ++ u.reg lo = a + b ∧ (u.cc.c = true ↔ 4294967296 ≤ a.toNat + b.toNat) ∧
      (u.cc.z = true ↔ a + b = 0#32) ∧ u.cc.n = (a + b).msb ∧
      (u.cc.o = true ↔ (a + b).toInt ≠ a.toInt + b.toInt)) ∧
    (Completes (.subfReg lo0 lo1 lo) s fun t => Completes (.subc hi0 hi1 hi) t fun u =>
      u.reg hi ++ u.reg lo = a - b ∧ (u.cc.c = true ↔ a.toNat < b.toNat) ∧
      (u.cc.z = true ↔ a - b = 0#32) ∧ u.cc.n = (a - b).msb ∧
      (u.cc.o = true ↔ (a - b).toInt ≠ a.toInt - b.toInt))

/-- `negt`, `absl`, `clzr`, `sxbt`, `sxsh`: the negation, the absolute value (0x8000 gives 0x8000), the leading zeros (16 for
zero, else 15 less the index of the highest set bit), the sign of the low byte and of the short extended; no flag changes
(R270, R277, R283, R288, R289). -/
def Obligations.UnaryArithmeticWritesRd : Prop :=
  ∀ (s : State) (rs rd : RegNum),
    IsWordOf (patR2 0b01000010 rs rd) (.negt rs rd) ∧ Puts (.negt rs rd) s rd (0#16 - s.reg rs) ∧
    IsWordOf (patR2 0b01000011 rs rd) (.absl rs rd) ∧
    ((s.reg rs).getLsbD 15 = true → Puts (.absl rs rd) s rd (0#16 - s.reg rs)) ∧
    ((s.reg rs).getLsbD 15 = false → Puts (.absl rs rd) s rd (s.reg rs)) ∧
    IsWordOf (patR2 0b01000101 rs rd) (.clzr rs rd) ∧
    (s.reg rs = 0#16 → Puts (.clzr rs rd) s rd 16#16) ∧
    (∀ k : Nat, k < 16 → (s.reg rs).getLsbD k = true → (∀ j : Nat, k < j → (s.reg rs).getLsbD j = false) →
      Puts (.clzr rs rd) s rd (BitVec.ofNat 16 (15 - k))) ∧
    IsWordOf (patR2 0b01000110 rs rd) (.sxbt rs rd) ∧
    Puts (.sxbt rs rd) s rd (((s.reg rs).extractLsb' 0 8).signExtend 16) ∧
    IsWordOf (patR2 0b01000111 rs rd) (.sxsh rs rd) ∧
    ((s.reg rs).getLsbD 15 = true → Puts (.sxsh rs rd) s rd 0xFFFF#16) ∧
    ((s.reg rs).getLsbD 15 = false → Puts (.sxsh rs rd) s rd 0x0000#16)

/-- `addh`: the coded byte is added to the high byte; no flag changes (R274). That the coded byte stands in the word like
a C8 constant is decision D5 (log entry 14). -/
def Obligations.AddHighAddsToHighByte : Prop :=
  ∀ (s : State) (hi : BitVec 8) (rb : RegNum),
    IsWordOf (patI8 hi 0b011 rb) (.addh hi rb) ∧ Puts (.addh hi rb) s rb (s.reg rb + (hi ++ 0#8))

/-! ## Logic -/

/-- `andb`: the result, C its parity, O the parity exclusive-or the C before, Z and N (R300). -/
def Obligations.AndWritesResultAndParity : Prop :=
  ∀ (s : State) (rs0 rs1 rd rb : RegNum) (c8 : BitVec 8),
    let flags := fun (r : Word) =>
      let par := ((List.range 16).map r.getLsbD).foldl (· ^^ ·) false
      (⟨r.getLsbD 15, r == 0#16, par ^^ s.cc.c, par⟩ : Flags)
    IsWordOf (patR3 0b0101 rs0 rs1 rd 0b1010) (.andbReg rs0 rs1 rd) ∧
    PutsCC (.andbReg rs0 rs1 rd) s rd (s.reg rs1 &&& s.reg rs0) (flags (s.reg rs1 &&& s.reg rs0)) ∧
    IsWordOf (patI8 c8 0b101 rb) (.andbImm c8 rb) ∧
    PutsCC (.andbImm c8 rb) s rb (s.reg rb &&& c8.setWidth 16) (flags (s.reg rb &&& c8.setWidth 16))

/-- `iorb`, `xorb`, `invt`: no flag changes (R301, R302, R303). -/
def Obligations.OrExclusiveOrInvert : Prop :=
  ∀ (s : State) (rs0 rs1 rd rb : RegNum) (c8 : BitVec 8),
    IsWordOf (patR3 0b0110 rs0 rs1 rd 0b1010) (.iorbReg rs0 rs1 rd) ∧
    Puts (.iorbReg rs0 rs1 rd) s rd (s.reg rs1 ||| s.reg rs0) ∧
    IsWordOf (patI8 c8 0b110 rb) (.iorbImm c8 rb) ∧ Puts (.iorbImm c8 rb) s rb (s.reg rb ||| c8.setWidth 16) ∧
    IsWordOf (patR3 0b0111 rs0 rs1 rd 0b1010) (.xorbReg rs0 rs1 rd) ∧
    Puts (.xorbReg rs0 rs1 rd) s rd (s.reg rs1 ^^^ s.reg rs0) ∧
    IsWordOf (patI8 c8 0b111 rb) (.xorbImm c8 rb) ∧ Puts (.xorbImm c8 rb) s rb (s.reg rb ^^^ c8.setWidth 16) ∧
    IsWordOf (patR2 0b01000100 rs0 rd) (.invt rs0 rd) ∧ Puts (.invt rs0 rd) s rd (~~~ s.reg rs0)

/-! ## Shifts and bits -/

/-- `shlz`, `shru`, `shlf`, `shrs` by n: n bits left modulo 2^16, the unsigned quotient by 2^n, the rotation left by n, the
signed quotient by 2^n rounded down; no flag changes. The constant forms take n from SHC4, the register forms from bits
[3:0] of Rs0, whose other bits are ignored (R310, R311, R312, R313, R314). -/
def Obligations.ShiftsAndRotates : Prop :=
  ∀ (s : State) (k : BitVec 4) (rs0 rs1 rd : RegNum) (n : Nat), n = (s.reg rs0).toNat % 16 →
    IsWordOf (patR3 0b0000 k rs1 rd 0b0110) (.shlzImm k rs1 rd) ∧
    Puts (.shlzImm k rs1 rd) s rd (BitVec.ofNat 16 ((s.reg rs1).toNat * 2 ^ k.toNat)) ∧
    IsWordOf (patR3 0b0001 k rs1 rd 0b0110) (.shruImm k rs1 rd) ∧
    Puts (.shruImm k rs1 rd) s rd (BitVec.ofNat 16 ((s.reg rs1).toNat / 2 ^ k.toNat)) ∧
    IsWordOf (patR3 0b0010 k rs1 rd 0b0110) (.shlfImm k rs1 rd) ∧
    Puts (.shlfImm k rs1 rd) s rd ((s.reg rs1).rotateLeft k.toNat) ∧
    IsWordOf (patR3 0b0011 k rs1 rd 0b0110) (.shrsImm k rs1 rd) ∧
    Puts (.shrsImm k rs1 rd) s rd (BitVec.ofInt 16 ((s.reg rs1).toInt / 2 ^ k.toNat)) ∧
    IsWordOf (patR3 0b0000 rs0 rs1 rd 0b0010) (.shlzReg rs0 rs1 rd) ∧
    Puts (.shlzReg rs0 rs1 rd) s rd (BitVec.ofNat 16 ((s.reg rs1).toNat * 2 ^ n)) ∧
    IsWordOf (patR3 0b0001 rs0 rs1 rd 0b0010) (.shruReg rs0 rs1 rd) ∧
    Puts (.shruReg rs0 rs1 rd) s rd (BitVec.ofNat 16 ((s.reg rs1).toNat / 2 ^ n)) ∧
    IsWordOf (patR3 0b0010 rs0 rs1 rd 0b0010) (.shlfReg rs0 rs1 rd) ∧
    Puts (.shlfReg rs0 rs1 rd) s rd ((s.reg rs1).rotateLeft n) ∧
    IsWordOf (patR3 0b0011 rs0 rs1 rd 0b0010) (.shrsReg rs0 rs1 rd) ∧
    Puts (.shrsReg rs0 rs1 rd) s rd (BitVec.ofInt 16 ((s.reg rs1).toInt / 2 ^ n))

/-- `btcl`, `btst`, `bttg`: the bit indexed is cleared, set or toggled, the others are copied; no flag changes; the
register forms take the index from bits [3:0] of Rs0 (R320, R321, R322, R324). -/
def Obligations.BitClearSetToggle : Prop :=
  ∀ (s : State) (rs0 rs1 rd : RegNum) (k : BitVec 4) (n : Nat), n = (s.reg rs0).toNat % 16 →
    IsWordOf (patR3 0b0100 k rs1 rd 0b0110) (.btclImm k rs1 rd) ∧
    Puts (.btclImm k rs1 rd) s rd (s.reg rs1 &&& ~~~ BitVec.twoPow 16 k.toNat) ∧
    IsWordOf (patR3 0b0110 k rs1 rd 0b0110) (.btstImm k rs1 rd) ∧
    Puts (.btstImm k rs1 rd) s rd (s.reg rs1 ||| BitVec.twoPow 16 k.toNat) ∧
    IsWordOf (patR3 0b0111 k rs1 rd 0b0110) (.bttgImm k rs1 rd) ∧
    Puts (.bttgImm k rs1 rd) s rd (s.reg rs1 ^^^ BitVec.twoPow 16 k.toNat) ∧
    IsWordOf (patR3 0b0100 rs0 rs1 rd 0b0010) (.btclReg rs0 rs1 rd) ∧
    Puts (.btclReg rs0 rs1 rd) s rd (s.reg rs1 &&& ~~~ BitVec.twoPow 16 n) ∧
    IsWordOf (patR3 0b0110 rs0 rs1 rd 0b0010) (.btstReg rs0 rs1 rd) ∧
    Puts (.btstReg rs0 rs1 rd) s rd (s.reg rs1 ||| BitVec.twoPow 16 n) ∧
    IsWordOf (patR3 0b0111 rs0 rs1 rd 0b0010) (.bttgReg rs0 rs1 rd) ∧
    Puts (.bttgReg rs0 rs1 rd) s rd (s.reg rs1 ^^^ BitVec.twoPow 16 n)

/-- `btts`: Z says that the bit indexed is 0, N that bit 15 was tested and is 1, C and O are cleared; no register is
written; a word of its pattern with another value than 0 in bits [7:4] is reserved (R323). -/
def Obligations.BitTestWritesFlagsOnly : Prop :=
  ∀ (s : State) (rs0 rs1 : RegNum) (k : BitVec 4) (n : Nat), n = (s.reg rs0).toNat % 16 →
    IsWordOf (patR3 0b0101 k rs1 0 0b0110) (.bttsImm k rs1) ∧
    Tests (.bttsImm k rs1) s
      ⟨decide (k = 15#4) && (s.reg rs1).getLsbD 15, !(s.reg rs1).getLsbD k.toNat, false, false⟩ ∧
    IsWordOf (patR3 0b0101 rs0 rs1 0 0b0010) (.bttsReg rs0 rs1) ∧
    Tests (.bttsReg rs0 rs1) s
      ⟨decide (n = 15) && (s.reg rs1).getLsbD 15, !(s.reg rs1).getLsbD n, false, false⟩ ∧
    ∀ d : BitVec 4, d ≠ 0#4 → (∃ c, decode (patR3 0b0101 k rs1 d 0b0110) = .error c) ∧
      ∃ c, decode (patR3 0b0101 rs0 rs1 d 0b0010) = .error c

/-! ## Multiply -/

/-- `mult`, `mlhu`, `mlhs`: the low word of the product, and the high words of the exact unsigned and signed products; no
flag changes (R331, R332, R333). -/
def Obligations.MultiplyLowAndHighWords : Prop :=
  ∀ (s : State) (rs0 rs1 rd : RegNum),
    IsWordOf (patR3 0b0000 rs0 rs1 rd 0b1110) (.mult rs0 rs1 rd) ∧
    Puts (.mult rs0 rs1 rd) s rd (BitVec.ofNat 16 ((s.reg rs1).toNat * (s.reg rs0).toNat)) ∧
    IsWordOf (patR3 0b0010 rs0 rs1 rd 0b1110) (.mlhu rs0 rs1 rd) ∧
    Puts (.mlhu rs0 rs1 rd) s rd (BitVec.ofNat 16 ((s.reg rs1).toNat * (s.reg rs0).toNat / 65536)) ∧
    IsWordOf (patR3 0b0011 rs0 rs1 rd 0b1110) (.mlhs rs0 rs1 rd) ∧
    Puts (.mlhs rs0 rs1 rd) s rd (BitVec.ofInt 16 ((s.reg rs1).toInt * (s.reg rs0).toInt / 65536))

/-- `mlcu`: the low word of the product by the unsigned constant; no flag changes (R330). Its code is the open parameter
`MLCU_FN3`: with the parameter given, its word is read as `mlcu`; unset, both candidates are reserved (log entry 12). -/
def Obligations.MultiplyConstant : Prop :=
  ∀ (s : State) (c8 : BitVec 8) (rb : RegNum),
    Puts (.mlcu c8 rb) s rb (BitVec.ofNat 16 ((s.reg rb).toNat * c8.toNat)) ∧
    decodeWith (some .fn010) (patI8 c8 0b010 rb) = .ok (.mlcu c8 rb) ∧
    decodeWith (some .fn100) (patI8 c8 0b100 rb) = .ok (.mlcu c8 rb) ∧
    decode (patI8 c8 0b010 rb) = .error .constant8 ∧ decode (patI8 c8 0b100 rb) = .error .constant8

/-! ## Moves -/

/-- `move` and `mvsr`: the source, the constant sign-extended, R8 plus the constant; no flag changes (R250, R251). -/
def Obligations.MoveAndStackReference : Prop :=
  ∀ (s : State) (rs rd : RegNum) (c10 : BitVec 10),
    IsWordOf (patR2 0b01000000 rs rd) (.moveReg rs rd) ∧ Puts (.moveReg rs rd) s rd (s.reg rs) ∧
    IsWordOf (patI10 c10 0 rd 0b0110) (.moveImm c10 rd) ∧ Puts (.moveImm c10 rd) s rd (c10.signExtend 16) ∧
    IsWordOf (patI10 c10 1 rd 0b0110) (.mvsr c10 rd) ∧ Puts (.mvsr c10 rd) s rd (s.reg 8 + c10.signExtend 16)

/-- `move (K & 0xFF),Rd` then `addh (K & 0xFF00),Rd` leave K in Rd for every 16-bit K, and change nothing else but pc
(R257). -/
def Obligations.ConstantPairBuildsAnyWord : Prop :=
  ∀ (s : State) (k : Word) (rd : RegNum),
    Completes (.moveImm ((k.extractLsb' 0 8).setWidth 10) rd) s fun t =>
      Completes (.addh (k.extractLsb' 8 8) rd) t fun u => u.reg rd = k ∧ Kept s u [.reg rd, .pc]

/-- `mfsr`: the value of each special register; reserved bits read as zero, U0 reads sign-extended, ID is the constant
with FML = 7, ISA = 1 and a revision that is not 0 (R53, R54, R252); a number that names no register is refused (decision
D4, log entry 18). -/
def Obligations.SpecialRegistersRead : Prop :=
  ∀ (s : State) (q : SRegNum) (rd : RegNum),
    IsWordOf (patR2 0b01010010 q rd) (.mfsr q rd) ∧
    Puts (.mfsr 0 rd) s rd
      (0#12 ++ BitVec.ofBool s.cc.n ++ BitVec.ofBool s.cc.z ++ BitVec.ofBool s.cc.o ++ BitVec.ofBool s.cc.c) ∧
    Puts (.mfsr 1 rd) s rd
      (s.ivtp ++ 0#2 ++ BitVec.ofBool s.csIs ++ BitVec.ofBool s.csIe ++ BitVec.ofBool s.csIr) ∧
    Puts (.mfsr 2 rd) s rd (0#6 ++ s.lc) ∧
    Puts (.mfsr 4 rd) s rd (s.u0.signExtend 16) ∧
    Puts (.mfsr 12 rd) s rd s.sa ∧ Puts (.mfsr 13 rd) s rd s.ia ∧ Puts (.mfsr 14 rd) s rd s.ta ∧
    Puts (.mfsr 15 rd) s rd (Config.idRev ++ Config.idIma ++ 1#4 ++ 7#4) ∧ Config.idRev ≠ 0#4 ∧
    (q ∉ [0#4, 1#4, 2#4, 4#4, 12#4, 13#4, 14#4, 15#4] →
      exec (.mfsr q rd) s = .refused (.reservedSpecialRegister q))

/-- `mtsr`, both forms: the constant is zero-extended, and each special register takes what R54 says and nothing else
changes but pc (R41, R47, R54, R172, R253); a number that names no register is refused (decision D4, log entry 18). -/
def Obligations.SpecialRegistersWritten : Prop :=
  ∀ (s : State) (rs : RegNum) (p : SRegNum) (c10 : BitVec 10),
    IsWordOf (patR2 0b01010011 rs p) (.mtsrReg rs p) ∧ IsWordOf (patI10 c10 0 p 0b1110) (.mtsrImm c10 p) ∧
    ∀ (i : SRegNum → Instr) (v : Word),
      (i = .mtsrReg rs ∧ v = s.reg rs) ∨ (i = .mtsrImm c10 ∧ v = c10.setWidth 16) →
      (Completes (i 0) s fun t =>
        t.cc = ⟨v.getLsbD 3, v.getLsbD 2, v.getLsbD 1, v.getLsbD 0⟩ ∧ InSequence s t ∧ Kept s t [.cc, .pc]) ∧
      (Completes (i 1) s fun t => t.ivtp = v.extractLsb' 5 11 ∧ InSequence s t ∧ Kept s t [.ivtp, .pc]) ∧
      (Completes (i 2) s fun t => t.lc = v.extractLsb' 0 10 ∧ InSequence s t ∧ Kept s t [.lc, .pc]) ∧
      (Completes (i 4) s fun t => t.u0 = v.extractLsb' 0 10 ∧ InSequence s t ∧ Kept s t [.u0, .pc]) ∧
      (Completes (i 12) s fun t => t.sa = v ∧ InSequence s t ∧ Kept s t [.sa, .pc]) ∧
      (Completes (i 13) s fun t => t.ia = v ∧ InSequence s t ∧ Kept s t [.ia, .pc]) ∧
      (Completes (i 14) s fun t => t.ta = v ∧ InSequence s t ∧ Kept s t [.ta, .pc]) ∧
      (Completes (i 15) s fun t => InSequence s t ∧ Kept s t [.pc]) ∧
      (p ∉ [0#4, 1#4, 2#4, 4#4, 12#4, 13#4, 14#4, 15#4] →
        exec (i p) s = .refused (.reservedSpecialRegister p))

/-- `mtdp` drives its register on `DBO`: the latch and one output event; no flag changes (R255). -/
def Obligations.MoveToDebugPort : Prop :=
  ∀ (s : State) (rs : RegNum),
    IsWordOf (patR2 0b01010001 rs 0) (.mtdp rs) ∧
    Completes (.mtdp rs) s fun t =>
      t.dbo = s.reg rs ∧ t.outputs = .dbo (s.reg rs) :: s.outputs ∧ InSequence s t ∧ Kept s t [.dbo, .outputs, .pc]

/-- `mfdp` and `rspc` take bits [15:0] of the word on the debug input port, bits [19:16] are ignored; nothing else changes
but pc (R254, R381). Where the host supplies nothing on the port both are refused (R429, decision D19: log entry 10).
What drives the port is the debug module's event, which changes nothing else, running or stopped (R59, R429; the event is
the model's: log entry 27). -/
def Obligations.DebugInputReads : Prop :=
  ∀ (s : State) (rd : RegNum),
    IsWordOf (patR2 0b01010000 0 rd) (.mfdp rd) ∧ IsWordOf 0xC0075#20 .rspc ∧
    (∀ v : BitVec 20, s.dbi = some v →
      Puts (.mfdp rd) s rd (v.extractLsb' 0 16) ∧ GoesTo .rspc s (v.extractLsb' 0 16) []) ∧
    (s.dbi = none →
      exec (.mfdp rd) s = .refused .debugInputUndriven ∧ exec .rspc s = .refused .debugInputUndriven) ∧
    ∀ (es : List HostEvent) (v : Option (BitVec 20)), s.inputs = .driveDbi v :: es →
      ∃ t : State, step s = .next t ∧ t.dbi = v ∧ t.inputs = es ∧ Kept s t [.dbi, .inputs]

/-! ## Loads and stores -/

/-- Loads of one register, bytes zero-extended and shorts little-endian: direct, with offset, with scaled index, without an
update of An; and, where Rd is not An, post-increment, pre-decrement and post-update by U0 (R183 to R188, R210, R211;
addresses modulo 2^16 by decision D1, an odd 16-bit address by D2: log entries 15 and 16). -/
def Obligations.SingleRegisterLoads : Prop :=
  ∀ (s : State) (ea : BitVec 11) (ofs : BitVec 8) (rx rd : RegNum) (an : AddrNum) (base : Word),
    base = s.reg (1#1 ++ an) →
    LoadsFrom (.ldbtDirect ea rd) s .byte (ea.signExtend 16) rd ∧
    LoadsFrom (.ldshDirect ea rd) s .short (ea.signExtend 16) rd ∧
    LoadsFrom (.ldbtOffset ofs an rd) s .byte (base + ofs.signExtend 16) rd ∧
    LoadsFrom (.ldshOffset ofs an rd) s .short (base + ofs.signExtend 16) rd ∧
    LoadsFrom (.ldbtIndex rx an rd) s .byte (base + s.reg rx) rd ∧
    LoadsFrom (.ldshIndex rx an rd) s .short (base + 2#16 * s.reg rx) rd ∧
    (rd ≠ 1#1 ++ an →
      LoadsUpdating (.ldbtPostInc an rd) s .byte base (1#1 ++ an) (base + 1#16) rd ∧
      LoadsUpdating (.ldshPostInc an rd) s .short base (1#1 ++ an) (base + 2#16) rd ∧
      LoadsUpdating (.ldbtPreDec an rd) s .byte (base - 1#16) (1#1 ++ an) (base - 1#16) rd ∧
      LoadsUpdating (.ldshPreDec an rd) s .short (base - 2#16) (1#1 ++ an) (base - 2#16) rd ∧
      LoadsUpdating (.ldbtPostUpd an rd) s .byte base (1#1 ++ an) (base + s.u0.signExtend 16) rd ∧
      LoadsUpdating (.ldshPostUpd an rd) s .short base (1#1 ++ an) (base + s.u0.signExtend 16) rd)

/-- Stores of one register, a byte store the low byte only and a short store both bytes little-endian: without an update
of An, and with one. The value stored is the source before the update: Rs = An stores the old An in (An)+ and (An)*; -(An)
is stated where Rs is not An (R183 to R189, R212, R213; log entries 15, 16 and 19). -/
def Obligations.SingleRegisterStores : Prop :=
  ∀ (s : State) (ea : BitVec 11) (ofs : BitVec 8) (rx rs : RegNum) (an : AddrNum) (base : Word),
    base = s.reg (1#1 ++ an) →
    StoresTo (.stbtDirect rs ea) s .byte (ea.signExtend 16) (s.reg rs) ∧
    StoresTo (.stshDirect rs ea) s .short (ea.signExtend 16) (s.reg rs) ∧
    StoresTo (.stbtOffset rs ofs an) s .byte (base + ofs.signExtend 16) (s.reg rs) ∧
    StoresTo (.stshOffset rs ofs an) s .short (base + ofs.signExtend 16) (s.reg rs) ∧
    StoresTo (.stbtIndex rs rx an) s .byte (base + s.reg rx) (s.reg rs) ∧
    StoresTo (.stshIndex rs rx an) s .short (base + 2#16 * s.reg rx) (s.reg rs) ∧
    StoresUpdating (.stbtPostInc rs an) s .byte base (1#1 ++ an) (base + 1#16) (s.reg rs) ∧
    StoresUpdating (.stshPostInc rs an) s .short base (1#1 ++ an) (base + 2#16) (s.reg rs) ∧
    StoresUpdating (.stbtPostUpd rs an) s .byte base (1#1 ++ an) (base + s.u0.signExtend 16) (s.reg rs) ∧
    StoresUpdating (.stshPostUpd rs an) s .short base (1#1 ++ an) (base + s.u0.signExtend 16) (s.reg rs) ∧
    (rs ≠ 1#1 ++ an →
      StoresUpdating (.stbtPreDec rs an) s .byte (base - 1#16) (1#1 ++ an) (base - 1#16) (s.reg rs) ∧
      StoresUpdating (.stshPreDec rs an) s .short (base - 2#16) (1#1 ++ an) (base - 2#16) (s.reg rs))

/-- Loads of a register selection: (An)+ upward in the order R0/SA, R2 to R7, R1/R9, RC/RA, RD/RB and -(An) downward in
the reverse order, An moved by size * n; the n bus reads are shown one by one in that order, each with its address and
value (R91, R97, R179, R180, R181, R182, R210, R211, R430). For selections that are not empty and do not hold An: the
others are refused (decisions D13 and D14, log entry 19). Addresses are modulo 2^16 by decision D1 and a short at an odd
address is the aligned one by D2 (log entries 15 and 16). -/
def Obligations.SelectionLoads : Prop :=
  ∀ (s : State) (an : AddrNum) (rgs : BitVec 10) (sz : Size) (l : List SelReg) (base : Word),
    l ≠ [] → SelReg.gpr (1#1 ++ an) ∉ l → base = s.reg (1#1 ++ an) →
    (Selects (ascending sz) rgs l →
      LoadsSelection (match sz with | .byte => .ldbtPostIncSel an rgs | .short => .ldshPostIncSel an rgs) s sz
        (1#1 ++ an) l (fun k => base + bytesOf sz * BitVec.ofNat 16 k) (base + bytesOf sz * BitVec.ofNat 16 l.length)) ∧
    (Selects (descending sz) rgs l →
      LoadsSelection (match sz with | .byte => .ldbtPreDecSel an rgs | .short => .ldshPreDecSel an rgs) s sz
        (1#1 ++ an) l (fun k => base - bytesOf sz * BitVec.ofNat 16 k - bytesOf sz)
        (base - bytesOf sz * BitVec.ofNat 16 l.length))

/-- Stores of a register selection, with the addresses and the order of `SelectionLoads`; the n bus writes are shown one by
one in that order, each with its address and the bits written (R91, R97, R179, R180, R181, R182, R212, R213, R430;
decisions D13 and D14, log entry 19; D1 and D2, log entries 15 and 16). -/
def Obligations.SelectionStores : Prop :=
  ∀ (s : State) (an : AddrNum) (rgs : BitVec 10) (sz : Size) (l : List SelReg) (base : Word),
    l ≠ [] → SelReg.gpr (1#1 ++ an) ∉ l → base = s.reg (1#1 ++ an) →
    (Selects (ascending sz) rgs l →
      StoresSelection (match sz with | .byte => .stbtPostIncSel rgs an | .short => .stshPostIncSel rgs an) s sz
        (1#1 ++ an) l (fun k => base + bytesOf sz * BitVec.ofNat 16 k) (base + bytesOf sz * BitVec.ofNat 16 l.length)) ∧
    (Selects (descending sz) rgs l →
      StoresSelection (match sz with | .byte => .stbtPreDecSel rgs an | .short => .stshPreDecSel rgs an) s sz
        (1#1 ++ an) l (fun k => base - bytesOf sz * BitVec.ofNat 16 k - bytesOf sz)
        (base - bytesOf sz * BitVec.ofNat 16 l.length))

/-- The loads and stores the spec refuses: Rd = An in an updating load, Rs = An in a -(An) store, An in its own selection,
an empty selection in each of its eight forms (R189, R190; decisions D13 and D14, log entry 19). -/
def Obligations.OverlappingTransfersAreRefused : Prop :=
  ∀ (s : State) (an : AddrNum) (r : RegNum), r = 1#1 ++ an →
    exec (.ldbtPostInc an r) s = .refused .addressRegisterOverlap ∧
    exec (.ldshPostInc an r) s = .refused .addressRegisterOverlap ∧
    exec (.ldbtPreDec an r) s = .refused .addressRegisterOverlap ∧
    exec (.ldshPreDec an r) s = .refused .addressRegisterOverlap ∧
    exec (.ldbtPostUpd an r) s = .refused .addressRegisterOverlap ∧
    exec (.ldshPostUpd an r) s = .refused .addressRegisterOverlap ∧
    exec (.stbtPreDec r an) s = .refused .addressRegisterOverlap ∧
    exec (.stshPreDec r an) s = .refused .addressRegisterOverlap ∧
    exec (.ldbtPostIncSel an 0) s = .refused .emptySelection ∧ exec (.ldbtPreDecSel an 0) s = .refused .emptySelection ∧
    exec (.ldshPostIncSel an 0) s = .refused .emptySelection ∧ exec (.ldshPreDecSel an 0) s = .refused .emptySelection ∧
    exec (.stbtPostIncSel 0 an) s = .refused .emptySelection ∧ exec (.stbtPreDecSel 0 an) s = .refused .emptySelection ∧
    exec (.stshPostIncSel 0 an) s = .refused .emptySelection ∧ exec (.stshPreDecSel 0 an) s = .refused .emptySelection ∧
    ∀ (rgs : BitVec 10) (l : List SelReg), SelReg.gpr r ∈ l →
      (Selects (ascending .byte) rgs l → exec (.ldbtPostIncSel an rgs) s = .refused .addressRegisterOverlap ∧
        exec (.stbtPostIncSel rgs an) s = .refused .addressRegisterOverlap) ∧
      (Selects (ascending .short) rgs l → exec (.ldshPostIncSel an rgs) s = .refused .addressRegisterOverlap ∧
        exec (.stshPostIncSel rgs an) s = .refused .addressRegisterOverlap) ∧
      (Selects (descending .byte) rgs l → exec (.ldbtPreDecSel an rgs) s = .refused .addressRegisterOverlap ∧
        exec (.stbtPreDecSel rgs an) s = .refused .addressRegisterOverlap) ∧
      (Selects (descending .short) rgs l → exec (.ldshPreDecSel an rgs) s = .refused .addressRegisterOverlap ∧
        exec (.stshPreDecSel rgs an) s = .refused .addressRegisterOverlap)

/-- The region maps bound every data access and every fetch (R82, R94, decision D10; log entry 15): under any map of data
memory an access that goes to memory is as under the default map, and one that touches a byte in no region, or a byte of a
device, is refused; a selection is refused at its first access that is barred; a word of instruction memory is reached only
in a memory region; the default maps make every address memory. -/
def Obligations.RegionMapsBoundAccesses : Prop :=
  (∀ a : Word, Memory.kindAt Config.dmemRegions a = some .memory ∧ Memory.kindAt Config.imemRegions a = some .memory) ∧
  (∀ (m : Config.Regions) (a : Word) (r : Result),
    (Memory.kindAt m a = some .memory → Memory.instrAccess m a r = r) ∧
    (Memory.kindAt m a ≠ some .memory → Memory.instrAccess m a r = .refused (.unpopulatedInstruction a))) ∧
  ∀ (s : State) (m : Config.Regions) (sz : Size) (an : AddrNum),
    (∀ (r : RegNum) (eda newA : Word), r ≠ 1#1 ++ an →
      (InMemory m sz eda →
        s.loadTo m sz eda r = s.loadTo Config.dmemRegions sz eda r ∧
        s.storeFrom m sz eda r = s.storeFrom Config.dmemRegions sz eda r ∧
        s.loadUpdate m sz eda an newA r = s.loadUpdate Config.dmemRegions sz eda an newA r ∧
        s.storeUpdate m sz eda an newA r = s.storeUpdate Config.dmemRegions sz eda an newA r) ∧
      ∀ q : Refusal, BarredBy m sz eda q →
        s.loadTo m sz eda r = .refused q ∧ s.storeFrom m sz eda r = .refused q ∧
        s.loadUpdate m sz eda an newA r = .refused q ∧ s.storeUpdate m sz eda an newA r = .refused q) ∧
    ∀ (rgs : BitVec 10) (l : List SelReg) (base : Word),
      l ≠ [] → SelReg.gpr (1#1 ++ an) ∉ l → base = s.reg (1#1 ++ an) →
      (Selects (ascending sz) rgs l →
        BoundedBy m sz l.length (fun k => base + bytesOf sz * BitVec.ofNat 16 k) (s.loadSelUp · sz an rgs) ∧
        BoundedBy m sz l.length (fun k => base + bytesOf sz * BitVec.ofNat 16 k) (s.storeSelUp · sz an rgs)) ∧
      (Selects (descending sz) rgs l →
        BoundedBy m sz l.length (fun k => base - bytesOf sz * BitVec.ofNat 16 k - bytesOf sz)
          (s.loadSelDown · sz an rgs) ∧
        BoundedBy m sz l.length (fun k => base - bytesOf sz * BitVec.ofNat 16 k - bytesOf sz)
          (s.storeSelDown · sz an rgs))

/-- A push restores: after `stsh {list},-(An)`, `ldsh (An)+,{same list}` from any state with the same An and the same data
memory gives every register of the list and An the values they had before the push (R182, R218). The list is not empty
and does not hold An (log entry 19). -/
def Obligations.PushThenPopRestores : Prop :=
  ∀ (s u : State) (an : AddrNum) (pushed popped : BitVec 10) (l : List SelReg),
    l ≠ [] → SelReg.gpr (1#1 ++ an) ∉ l →
    Selects (descending .short) pushed l → Selects (ascending .short) popped l.reverse →
    Completes (.stshPreDecSel pushed an) s fun t =>
      u.reg (1#1 ++ an) = t.reg (1#1 ++ an) → (∀ a : Word, u.readByte a = t.readByte a) →
        Completes (.ldshPostIncSel an popped) u fun v =>
          (∀ r ∈ l, v.sel r = s.sel r) ∧ v.reg (1#1 ++ an) = s.reg (1#1 ++ an)

/-- Bytes and shorts share memory little-endian: two byte stores to the halves of an aligned word, then a short load, give
the high byte above the low byte; a short store then two byte loads give its halves (R87, R88, R219, derived in the
spec). -/
def Obligations.MixedSizeAccesses : Prop :=
  ∀ (s : State) (rlo rhi rd : RegNum) (ea : BitVec 11), ea.getLsbD 0 = false →
    (Completes (.stbtDirect rhi (ea ||| 1#11)) s fun t => Completes (.stbtDirect rlo ea) t fun u =>
      Completes (.ldshDirect ea rd) u fun v =>
        v.reg rd = (s.reg rhi).extractLsb' 0 8 ++ (s.reg rlo).extractLsb' 0 8) ∧
    (Completes (.stshDirect rlo ea) s fun t =>
      (Completes (.ldbtDirect ea rd) t fun u => u.reg rd = 0#8 ++ (s.reg rlo).extractLsb' 0 8) ∧
      Completes (.ldbtDirect (ea ||| 1#11) rd) t fun u => u.reg rd = 0#8 ++ (s.reg rlo).extractLsb' 8 8)

/-! ## Flow -/

/-- `jpsr` (both forms) saves pc + 1 in SA and goes to its target; `rtsr` goes to SA (R341, R342). -/
def Obligations.SubroutineCallAndReturn : Prop :=
  ∀ (s : State) (ia : Word),
    IsWordOf (patIMP 0b0001) .jpsr ∧
    (Completes .jpsr s fun t => t.sa = s.pc + 1#16 ∧ t.pc = s.ta ∧ Kept s t [.sa, .pc]) ∧
    IsWordOf (patJ ia) (.jpsrAbs ia) ∧
    (Completes (.jpsrAbs ia) s fun t => t.sa = s.pc + 1#16 ∧ t.pc = ia ∧ Kept s t [.sa, .pc]) ∧
    IsWordOf (patIMP 0b0010) .rtsr ∧ GoesTo .rtsr s s.sa []

/-- `jump` goes to TA (R340). Its selector `0000` is inferred by the spec (log entry 13). -/
def Obligations.JumpGoesToTargetAddress : Prop :=
  ∀ s : State, IsWordOf (patIMP 0b0000) .jump ∧ GoesTo .jump s s.ta []

/-- RETURN FROM INTERRUPT: with CS.IR = 1, pc from IA, CC from CCS, IR cleared, nothing else changed (R343, R411; that IE
and IS are unchanged is decision D8, log entry 21); with CS.IR = 0 the model refuses (decision D12, log entry 20). -/
def Obligations.ReturnFromInterrupt : Prop :=
  ∀ s : State,
    IsWordOf (patIMP 0b0011) .rtir ∧
    (s.csIr = true → Completes .rtir s fun t =>
      t.pc = s.ia ∧ t.cc = s.ccs ∧ t.csIr = false ∧ Kept s t [.pc, .cc, .csIr]) ∧
    (s.csIr = false → exec .rtir s = .refused .returnOutsideInterrupt)

/-- `bral` goes to pc plus its offset; `brlc` counts LC down modulo 2^10 and branches while it is not zero; its
pattern with bit 7 set is reserved (R344, R345). -/
def Obligations.BranchAlwaysAndLoopBranch : Prop :=
  ∀ (s : State) (io14 : BitVec 14) (io : BitVec 10),
    IsWordOf (patB14 io14) (.bral io14) ∧ GoesTo (.bral io14) s (s.pc + io14.signExtend 16) [] ∧
    IsWordOf (patB10 io false 0b111 1) (.brlc io) ∧ (∃ c, decode (patB10 io true 0b111 1) = .error c) ∧
    Completes (.brlc io) s fun t =>
      t.lc = s.lc - 1#10 ∧ (t.lc ≠ 0#10 → t.pc = s.pc + io.signExtend 16) ∧ (t.lc = 0#10 → InSequence s t) ∧
        Kept s t [.lc, .pc]

/-- The eight branches on one flag, for both values of the speculation flag S (R346, R354 to R361). -/
def Obligations.BranchesOnOneFlag : Prop :=
  ∀ (s : State) (io : BitVec 10) (sp : Bool),
    IsWordOf (patB10 io sp 0b000 0) (.brnc io sp) ∧ Branches (.brnc io sp) s (s.cc.c = false) io ∧
    IsWordOf (patB10 io sp 0b001 0) (.brcr io sp) ∧ Branches (.brcr io sp) s (s.cc.c = true) io ∧
    IsWordOf (patB10 io sp 0b010 0) (.brno io sp) ∧ Branches (.brno io sp) s (s.cc.o = false) io ∧
    IsWordOf (patB10 io sp 0b011 0) (.brof io sp) ∧ Branches (.brof io sp) s (s.cc.o = true) io ∧
    IsWordOf (patB10 io sp 0b100 0) (.brnz io sp) ∧ Branches (.brnz io sp) s (s.cc.z = false) io ∧
    IsWordOf (patB10 io sp 0b101 0) (.brzr io sp) ∧ Branches (.brzr io sp) s (s.cc.z = true) io ∧
    IsWordOf (patB10 io sp 0b110 0) (.brps io sp) ∧ Branches (.brps io sp) s (s.cc.n = false) io ∧
    IsWordOf (patB10 io sp 0b111 0) (.brng io sp) ∧ Branches (.brng io sp) s (s.cc.n = true) io

/-- The six branches on two or three flags, for both values of S (R346, R362 to R367). The code `100` of `brle` is
inferred by the spec (log entry 13). -/
def Obligations.BranchesOnCombinedFlags : Prop :=
  ∀ (s : State) (io : BitVec 10) (sp : Bool),
    IsWordOf (patB10 io sp 0b000 1) (.brls io sp) ∧
    Branches (.brls io sp) s (s.cc.c = true ∨ s.cc.z = true) io ∧
    IsWordOf (patB10 io sp 0b001 1) (.brhi io sp) ∧
    Branches (.brhi io sp) s (s.cc.c = false ∧ s.cc.z = false) io ∧
    IsWordOf (patB10 io sp 0b110 1) (.brlo io sp) ∧ Branches (.brlo io sp) s (s.cc.n ≠ s.cc.o) io ∧
    IsWordOf (patB10 io sp 0b011 1) (.brge io sp) ∧ Branches (.brge io sp) s (s.cc.n = s.cc.o) io ∧
    IsWordOf (patB10 io sp 0b100 1) (.brle io sp) ∧
    Branches (.brle io sp) s (s.cc.z = true ∨ s.cc.n ≠ s.cc.o) io ∧
    IsWordOf (patB10 io sp 0b101 1) (.brgt io sp) ∧
    Branches (.brgt io sp) s (s.cc.z = false ∧ s.cc.n = s.cc.o) io

/-- After `comp Rs0,Rs1` the branches on an order or an equality decide the unsigned and signed relations of Rs1 to Rs0;
after `comp` of the low words and `cmpc` of the high words they decide those of the two 32-bit numbers (R293, R349,
derived in the spec). -/
def Obligations.ComparesDecideBranches : Prop :=
  ∀ (s : State) (lo0 lo1 hi0 hi1 : RegNum),
    (Completes (.compReg lo0 lo1) s fun t => ∀ (io : BitVec 10) (sp : Bool),
      DecidesBranches t io sp (s.reg lo1) (s.reg lo0)) ∧
    Completes (.compReg lo0 lo1) s fun t => Completes (.cmpc hi0 hi1) t fun u => ∀ (io : BitVec 10) (sp : Bool),
      DecidesBranches u io sp (s.reg hi1 ++ s.reg lo1) (s.reg hi0 ++ s.reg lo0)

/-- `stie`, `clie`, `scie`, `rsie` (R350 to R353). -/
def Obligations.InterruptEnableInstructions : Prop :=
  ∀ s : State,
    IsWordOf (patIMP 0b1000) .stie ∧
    (Completes .stie s fun t => t.csIe = true ∧ InSequence s t ∧ Kept s t [.csIe, .pc]) ∧
    IsWordOf (patIMP 0b1001) .clie ∧
    (Completes .clie s fun t => t.csIe = false ∧ InSequence s t ∧ Kept s t [.csIe, .pc]) ∧
    IsWordOf (patIMP 0b1011) .scie ∧
    (Completes .scie s fun t =>
      t.csIs = s.csIe ∧ t.csIe = false ∧ InSequence s t ∧ Kept s t [.csIs, .csIe, .pc]) ∧
    IsWordOf (patIMP 0b1010) .rsie ∧
    (Completes .rsie s fun t => t.csIe = s.csIs ∧ InSequence s t ∧ Kept s t [.csIe, .pc])

/-- Between `scie` and `rsie` no handler can run: after `scie` no request is acknowledged, no instruction but `stie`,
`rsie` and `scie` itself changes IE or the saved IE; and `rsie` brings the original IE back (R45, R368, derived in the
spec). -/
def Obligations.CriticalSectionExcludesInterrupts : Prop :=
  ∀ s : State, Completes .scie s fun t =>
    (∀ k : BitVec 4, t.handle (.interrupt k) = .next t) ∧
    ∀ u : State, u.csIe = false → u.csIs = t.csIs →
      (∀ k : BitVec 4, u.handle (.interrupt k) = .next u) ∧
      (∀ (i : Instr) (v : State), i ∉ [.stie, .rsie, .scie] → exec i u = .next v → v.csIe = false ∧ v.csIs = t.csIs) ∧
      Completes .rsie u fun v => v.csIe = s.csIe

/-! ## Debug -/

/-- `svpc` drives its own address on `DBO`; `stop` enters the stopped state with pc on the next instruction (R380, R382;
that a running program may use `svpc` is decision D19, log entry 24). -/
def Obligations.SavePcAndStop : Prop :=
  ∀ s : State,
    IsWordOf 0xC0065#20 .svpc ∧
    (Completes .svpc s fun t =>
      t.dbo = s.pc ∧ t.outputs = .dbo s.pc :: s.outputs ∧ InSequence s t ∧ Kept s t [.dbo, .outputs, .pc]) ∧
    IsWordOf 0xC0045#20 .stop ∧
    (Completes .stop s fun t => t.run = .stopped ∧ InSequence s t ∧ Kept s t [.run, .pc])

/-- In the stopped state an injected instruction has its ordinary effect on everything but pc, which it leaves alone, and
is refused where it would be when fetched, a reserved word included; `rspc` sets pc from its data word and is refused
without one; the twenty jumps, branches and returns and `stop` are refused, and so is any injection while running (R422,
R423, R424, R429; the refusals are decisions D3, D19 and D20 and, while running, the model's: log entries 17, 10, 24 and
8). -/
def Obligations.InjectionHoldsPc : Prop :=
  ∀ (s : State) (es : List HostEvent) (w : Opcode) (data : Option (BitVec 20)), s.inputs = .inject w data :: es →
    (s.run = .running → step s = .refused .eventNotEnabled) ∧
    (s.run = .stopped → ∀ c : ReservedClass, decode w = .error c → step s = .refused (.reservedEncoding c)) ∧
    (s.run = .stopped → ∀ i : Instr, decode w = .ok i →
      (¬ SetsPc i → i ≠ .stop → i ≠ .rspc →
        (∀ t : State, exec i { s with inputs := es, dbi := data } = .next t →
          ∃ u : State, step s = .next u ∧ u.pc = s.pc ∧ Kept t u [.pc]) ∧
        ∀ q : Refusal, exec i { s with inputs := es, dbi := data } = .refused q → step s = .refused q) ∧
      (i = .rspc → (∀ v : BitVec 20, data = some v →
          ∃ u : State, step s = .next u ∧ u.pc = v.extractLsb' 0 16 ∧ Kept s u [.pc, .inputs, .dbi]) ∧
        (data = none → step s = .refused .debugInputUndriven)) ∧
      (SetsPc i ∨ i = .stop → step s = .refused .injectedFlow))

/-- A stop request stops the core whatever IE and IR are, and changes nothing else; to a core already stopped, where R430
does not enable it, it changes nothing but that the event is used up (the model's choice: log entry 8). Resume sets a
stopped core running at the held pc and changes nothing else, and is refused while running (R421, R425; decisions D15 and
D18: log entry 24; the refusal: log entry 8). -/
def Obligations.StopAndResume : Prop :=
  ∀ (s : State) (es : List HostEvent),
    (s.inputs = .stopRequest :: es →
      ∃ t : State, step s = .next t ∧ t.run = .stopped ∧ t.inputs = es ∧ Kept s t [.run, .inputs]) ∧
    (s.inputs = .resume :: es → s.run = .stopped →
      ∃ t : State, step s = .next t ∧ t.run = .running ∧ t.inputs = es ∧ Kept s t [.run, .inputs]) ∧
    (s.inputs = .resume :: es → s.run = .running → step s = .refused .eventNotEnabled)

/-- The host's memory loads: while stopped, a byte of data memory or a word of instruction memory is written and nothing
else changes; while running both are refused (R83, R99, R100, R430; that the host writes only while stopped is decision D6,
log entry 28, the refusal of the data byte the model's, log entry 8; that every address is populated, log entry 15). -/
def Obligations.HostMemoryLoads : Prop :=
  ∀ (s : State) (es : List HostEvent) (a : Word),
    (∀ b : Byte, s.inputs = .loadData a b :: es →
      (s.run = .stopped → ∃ t : State, step s = .next t ∧ t.readByte a = b ∧ t.inputs = es ∧
        Kept s t [.byte a, .inputs]) ∧
      (s.run = .running → step s = .refused .eventNotEnabled)) ∧
    ∀ w : Opcode, s.inputs = .loadInstr a w :: es →
      (s.run = .stopped → ∃ t : State, step s = .next t ∧ Memory.find a.toNat t.imem = some w ∧
        (∀ b : Word, b ≠ a → Memory.find b.toNat t.imem = Memory.find b.toNat s.imem) ∧ t.inputs = es ∧
        Kept s t [.imem, .inputs]) ∧
      (s.run = .running → step s = .refused .eventNotEnabled)

/-! ## Interrupts -/

/-- TAKING AN INTERRUPT: with IE = 1, IR = 0 and the core running, interrupt k saves pc in IA and CC in CCS, sets IR and
goes to the short at (IVTP << 5) + 2 * k of data memory; IACK(k) and then the vector read are the outputs; CC, IE, IS and
everything else are unchanged (R403, R405, R407, R408; the order of the vectors is decision D7 and IE unchanged D8: log
entry 21; that a vector nothing has written is a free value, where R414 refuses, is the model's choice: log entry 4). With
IE = 0, or IR = 1, or the core stopped, the request has no effect: only the event is used up (R403, R430). -/
def Obligations.InterruptEntry : Prop :=
  ∀ (s : State) (es : List HostEvent) (k : BitVec 4), s.inputs = .interrupt k :: es →
    (s.csIe = true → s.csIr = false → s.run = .running →
      ∃ t : State, step s = .next t ∧
        Reads s .short (s.ivtp ++ k ++ 0#1) t.pc ∧ t.ia = s.pc ∧ t.ccs = s.cc ∧ t.csIr = true ∧ t.inputs = es ∧
        t.outputs = .read .short (s.ivtp ++ k ++ 0#1) t.pc :: .iack k :: s.outputs ∧
        Kept s t [.pc, .ia, .ccs, .csIr, .inputs, .outputs]) ∧
    (s.csIe = false ∨ s.csIr = true ∨ s.run = .stopped → step s = .next { s with inputs := es })

/-- Taking an interrupt and then returning, with anything done in between that leaves IA alone: pc and CC are as they were
at the request, IR is clear, and CCS is not the handler's to change (R407, R411). That IE and IS are as they were is
decision D8 (log entry 21), and that an interrupt through a vector nothing has written is taken is the model's choice (log
entry 4). -/
def Obligations.ReturnRestoresInterruptedProgram : Prop :=
  ∀ (s : State) (es : List HostEvent) (k : BitVec 4),
    s.inputs = .interrupt k :: es → s.csIe = true → s.csIr = false → s.run = .running →
    ∃ t : State, step s = .next t ∧
      (Completes .rtir t fun u => u.pc = s.pc ∧ u.cc = s.cc ∧ u.csIr = false ∧
        Kept s u [.ia, .ccs, .inputs, .outputs]) ∧
      (∀ (i : Instr) (u : State), exec i t = .next u → u.ccs = t.ccs) ∧
      ∀ u : State, u.ia = t.ia → u.ccs = t.ccs → u.csIr = true →
        Completes .rtir u fun v => v.pc = s.pc ∧ v.cc = s.cc ∧ v.csIr = false

/-! ## Who writes what -/

/-- No instruction changes CC but the eleven flag-writing ones, `mtsr` with destination CC, and `rtir`; none sets IR; only `rtir` clears it; IE is changed by `stie`, `clie`, `scie`, `rsie` alone and IS by `scie`
alone; IVTP, U0, IA and TA by `mtsr` alone; LC by `mtsr` and `brlc`; CCS and the instruction memory by no instruction; the
run state by `stop` alone (R38, R40, R41, R43, R44, R45, R55, R80, R410). -/
def Obligations.SystemStateHasFewWriters : Prop :=
  ∀ (i : Instr) (s t : State), exec i s = .next t →
    (t.cc ≠ s.cc →
      (∃ a b d, i = .addtReg a b d) ∨ (∃ c d, i = .addtImm c d) ∨ (∃ a b d, i = .addc a b d) ∨ (∃ a d, i = .adcf a d) ∨
      (∃ a b d, i = .subfReg a b d) ∨ (∃ c d, i = .subfImm c d) ∨ (∃ a b d, i = .subc a b d) ∨ (∃ a d, i = .sbcf a d) ∨
      (∃ a b, i = .compReg a b) ∨ (∃ c b, i = .compImm c b) ∨ (∃ a b, i = .cmpc a b) ∨ (∃ a, i = .cpcf a) ∨
      (∃ a b d, i = .andbReg a b d) ∨ (∃ c d, i = .andbImm c d) ∨ (∃ a b, i = .bttsReg a b) ∨ (∃ a b, i = .bttsImm a b) ∨
      (∃ a, i = .mtsrReg a 0) ∨ (∃ c, i = .mtsrImm c 0) ∨ i = .rtir) ∧
    (t.csIr ≠ s.csIr → i = .rtir ∧ t.csIr = false) ∧ (t.csIe ≠ s.csIe → i ∈ [.stie, .clie, .scie, .rsie]) ∧
    (t.csIs ≠ s.csIs → i = .scie) ∧
    (t.ivtp ≠ s.ivtp → (∃ a, i = .mtsrReg a 1) ∨ ∃ c, i = .mtsrImm c 1) ∧
    (t.u0 ≠ s.u0 → (∃ a, i = .mtsrReg a 4) ∨ ∃ c, i = .mtsrImm c 4) ∧
    (t.ia ≠ s.ia → (∃ a, i = .mtsrReg a 13) ∨ ∃ c, i = .mtsrImm c 13) ∧
    (t.ta ≠ s.ta → (∃ a, i = .mtsrReg a 14) ∨ ∃ c, i = .mtsrImm c 14) ∧
    (t.lc ≠ s.lc → (∃ a, i = .mtsrReg a 2) ∨ (∃ c, i = .mtsrImm c 2) ∨ ∃ io, i = .brlc io) ∧
    t.ccs = s.ccs ∧ t.imem = s.imem ∧ (t.run ≠ s.run → i = .stop) ∧ t.dbi = s.dbi ∧ t.inputs = s.inputs

/-! ## Reset -/

/-- After `Reset(irn)` the first instruction is fetched at `irn << 12`, and no vector is read (R450). -/
def Obligations.ResetStartsAtIrnPage : Prop :=
  ∀ (s : State) (es : List HostEvent) (irn : BitVec 4) (strq : Bool), s.inputs = .reset irn strq :: es →
    ∃ t : State, step s = .next t ∧ t.pc = irn ++ 0#12 ∧ t.outputs = s.outputs

/-- `Reset(irn)` in any state leaves CC = CCS = 0, IR = 1, IE = IS = 0 and both memories as they were (R451, R454); the core
runs unless `STRQ` is asserted (decision D9, log entry 23), and no request is acknowledged (R453). -/
def Obligations.ResetLeavesDefinedState : Prop :=
  ∀ (s : State) (es : List HostEvent) (irn : BitVec 4) (strq : Bool), s.inputs = .reset irn strq :: es →
    ∃ t : State, step s = .next t ∧
      t.cc = ⟨false, false, false, false⟩ ∧ t.ccs = ⟨false, false, false, false⟩ ∧
      t.csIr = true ∧ t.csIe = false ∧ t.csIs = false ∧ t.dmem = s.dmem ∧ t.imem = s.imem ∧
      (t.run = .stopped ↔ strq = true) ∧ t.inputs = es ∧
      ∀ k : BitVec 4, t.handle (.interrupt k) = .next t

/-- The state after reset: CS.IR = 1, IE = IS = 0, CC = CCS = 0 (R451), pc at a page start whose number is the model's
`Config.resetIrn` (log entry 2), running (decision D9, log entry 23). That nothing is loaded in either memory, whose
contents R451 leaves to the platform, is the model's choice (log entries 4, 5 and 6). -/
def Obligations.ResetStateValues : Prop :=
  State.reset.csIr = true ∧ State.reset.csIe = false ∧ State.reset.csIs = false ∧
  State.reset.cc = ⟨false, false, false, false⟩ ∧ State.reset.ccs = ⟨false, false, false, false⟩ ∧
  State.reset.pc = Config.resetIrn ++ 0#12 ∧ State.reset.run = .running ∧ State.reset.imem = [] ∧ State.reset.dmem = []

/-! ## Invariants -/

/-- Every step keeps both memories in canonical form: strictly rising addresses inside the 64K space. -/
def Obligations.StepKeepsInvariant : Prop :=
  ∀ s t : State, s.Inv → step s = .next t → t.Inv

/-- The state after reset has both memories in canonical form. -/
def Obligations.ResetHasInvariant : Prop := State.reset.Inv

/-- The program cannot change its own code: whatever a step does, the instruction memory is as it was unless the host's
next event loads a word, and then only that word changes (R80, R83, R99, R463; that data accesses never reach instruction
memory, and that the host writes it only while stopped, is decision D6, log entry 28). -/
def Obligations.OnlyTheHostWritesInstructions : Prop :=
  ∀ s t : State, step s = .next t →
    ((∀ (a : Word) (w : Opcode) (es : List HostEvent), s.inputs ≠ .loadInstr a w :: es) → t.imem = s.imem) ∧
    ∀ (a : Word) (w : Opcode) (es : List HostEvent), s.inputs = .loadInstr a w :: es →
      s.run = .stopped ∧ Memory.find a.toNat t.imem = some w ∧
        ∀ b : Word, b ≠ a → Memory.find b.toNat t.imem = Memory.find b.toNat s.imem
end

