-- ==== Sys2Proof/Laws/Decode.lean ====
section
/-! SUPPORT. What each encoding format does (30_encoding.md R127 to R137): the word as the spec prints its pattern, the
fields a decoder reads back from an encoded word, its fixed bits, and the word put together again from its fields. -/

set_option linter.unusedSimpArgs false

namespace Sys2Proof

/-- A word is its fixed bits and its other bits. -/
theorem rebuild {w m b : Opcode} (h : w &&& m = b) : b ||| (w &&& ~~~m) = w := by
  subst h
  apply BitVec.eq_of_getLsbD_eq
  intro i hi
  simp only [BitVec.getLsbD_or, BitVec.getLsbD_and, BitVec.getLsbD_not, hi, decide_true, Bool.true_and]
  cases w.getLsbD i <;> cases m.getLsbD i <;> rfl

/-! ## The words as the spec prints their patterns: bits from 19 down to 0 -/

theorem encR3_eq_pat (o a b d f : BitVec 4) : encR3 o a b d f = Machine.patR3 o a b d f := by
  apply BitVec.eq_of_getLsbD_eq
  intro i hi
  simp only [encR3, Machine.patR3, place,
    BitVec.getLsbD_append, BitVec.getLsbD_or, BitVec.getLsbD_and, BitVec.getLsbD_shiftLeft, BitVec.getLsbD_setWidth,
    BitVec.getLsbD_extractLsb']
  interval_cases i <;> simp

theorem encR2_eq_pat (o : BitVec 8) (s d : BitVec 4) : encR2 o s d = Machine.patR2 o s d := by
  apply BitVec.eq_of_getLsbD_eq
  intro i hi
  simp only [encR2, Machine.patR2, place,
    BitVec.getLsbD_append, BitVec.getLsbD_or, BitVec.getLsbD_and, BitVec.getLsbD_shiftLeft, BitVec.getLsbD_setWidth,
    BitVec.getLsbD_extractLsb']
  interval_cases i <;> simp

theorem encI8_eq_pat (c : BitVec 8) (f : BitVec 3) (d : BitVec 4) : encI8 c f d = Machine.patI8 c f d := by
  apply BitVec.eq_of_getLsbD_eq
  intro i hi
  simp only [encI8, placeC8, Machine.patI8, Machine.coded8, place,
    BitVec.getLsbD_append, BitVec.getLsbD_or, BitVec.getLsbD_and, BitVec.getLsbD_shiftLeft, BitVec.getLsbD_setWidth,
    BitVec.getLsbD_extractLsb']
  interval_cases i <;> simp

theorem encI10_eq_pat (c : BitVec 10) (e : BitVec 1) (r f : BitVec 4) : encI10 c e r f = Machine.patI10 c e r f := by
  apply BitVec.eq_of_getLsbD_eq
  intro i hi
  simp only [encI10, placeC10, Machine.patI10, Machine.coded10, place,
    BitVec.getLsbD_append, BitVec.getLsbD_or, BitVec.getLsbD_and, BitVec.getLsbD_shiftLeft, BitVec.getLsbD_setWidth,
    BitVec.getLsbD_extractLsb']
  interval_cases i <;> simp

theorem encJ_eq_pat (i : Word) : encJ i = Machine.patJ i := by
  apply BitVec.eq_of_getLsbD_eq
  intro i hi
  simp only [encJ, Machine.patJ, place,
    BitVec.getLsbD_append, BitVec.getLsbD_or, BitVec.getLsbD_and, BitVec.getLsbD_shiftLeft, BitVec.getLsbD_setWidth,
    BitVec.getLsbD_extractLsb']
  interval_cases i <;> simp

theorem encB14_eq_pat (j : BitVec 14) : encB14 j = Machine.patB14 j := by
  apply BitVec.eq_of_getLsbD_eq
  intro i hi
  simp only [encB14, Machine.patB14, place,
    BitVec.getLsbD_append, BitVec.getLsbD_or, BitVec.getLsbD_and, BitVec.getLsbD_shiftLeft, BitVec.getLsbD_setWidth,
    BitVec.getLsbD_extractLsb']
  interval_cases i <;> simp

theorem encIMP_eq_pat (s : BitVec 4) : encIMP s = Machine.patIMP s := by
  apply BitVec.eq_of_getLsbD_eq
  intro i hi
  simp only [encIMP, Machine.patIMP, place,
    BitVec.getLsbD_append, BitVec.getLsbD_or, BitVec.getLsbD_and, BitVec.getLsbD_shiftLeft, BitVec.getLsbD_setWidth,
    BitVec.getLsbD_extractLsb']
  interval_cases i <;> simp

theorem encMD_eq_pat (c : BitVec 11) (r : BitVec 4) (ls : BitVec 2) :
    encMD c r (ls ++ 0b00#2) = Machine.patMD c r ls := by
  apply BitVec.eq_of_getLsbD_eq
  intro i hi
  simp only [encMD, placeC11, Machine.patMD, Machine.coded11, place,
    BitVec.getLsbD_append, BitVec.getLsbD_or, BitVec.getLsbD_and, BitVec.getLsbD_shiftLeft, BitVec.getLsbD_setWidth,
    BitVec.getLsbD_extractLsb']
  interval_cases i <;> simp

theorem encMO_eq_pat (c : BitVec 8) (n : AddrNum) (r : BitVec 4) (ls : BitVec 2) :
    encMO c n r (ls ++ 0b01#2) = Machine.patMO c n r ls := by
  apply BitVec.eq_of_getLsbD_eq
  intro i hi
  simp only [encMO, placeC8, Machine.patMO, Machine.coded8, place,
    BitVec.getLsbD_append, BitVec.getLsbD_or, BitVec.getLsbD_and, BitVec.getLsbD_shiftLeft, BitVec.getLsbD_setWidth,
    BitVec.getLsbD_extractLsb']
  interval_cases i <;> simp

theorem encMA_eq_pat (o x : BitVec 4) (b : BitVec 1) (n : AddrNum) (r : BitVec 4) (ls : BitVec 2) :
    encMA o x b n r (ls ++ 0b00#2) = Machine.patMA o x b n r ls := by
  apply BitVec.eq_of_getLsbD_eq
  intro i hi
  simp only [encMA, Machine.patMA, place,
    BitVec.getLsbD_append, BitVec.getLsbD_or, BitVec.getLsbD_and, BitVec.getLsbD_shiftLeft, BitVec.getLsbD_setWidth,
    BitVec.getLsbD_extractLsb']
  interval_cases i <;> simp

theorem encMG_eq_pat (g : BitVec 10) (b : BitVec 1) (n : AddrNum) (ls : BitVec 2) :
    encMG b n g (ls ++ 0b00#2) = Machine.patMG g b n ls := by
  apply BitVec.eq_of_getLsbD_eq
  intro i hi
  simp only [encMG, Machine.patMG, place,
    BitVec.getLsbD_append, BitVec.getLsbD_or, BitVec.getLsbD_and, BitVec.getLsbD_shiftLeft, BitVec.getLsbD_setWidth,
    BitVec.getLsbD_extractLsb']
  interval_cases i <;> simp

theorem encB10_eq_pat (j : BitVec 10) (s : Bool) (c : BitVec 3) (g : BitVec 1) :
    encB10 j s c (1#1 ++ g ++ 0b01#2) = Machine.patB10 j s c g := by
  apply BitVec.eq_of_getLsbD_eq
  intro i hi
  simp only [encB10, Machine.patB10, place,
    BitVec.getLsbD_append, BitVec.getLsbD_or, BitVec.getLsbD_and, BitVec.getLsbD_shiftLeft, BitVec.getLsbD_setWidth,
    BitVec.getLsbD_extractLsb']
  interval_cases i <;> simp

/-! ## The fields of an encoded word -/

@[simp] theorem encR3_fA (o a b d f : BitVec 4) : (encR3 o a b d f).fA = a := by
  apply BitVec.eq_of_getLsbD_eq
  intro i hi
  simp only [encR3, Opcode.fA, place,
    BitVec.getLsbD_append, BitVec.getLsbD_or, BitVec.getLsbD_and, BitVec.getLsbD_shiftLeft, BitVec.getLsbD_setWidth,
    BitVec.getLsbD_extractLsb']
  interval_cases i <;> simp

@[simp] theorem encR3_fB (o a b d f : BitVec 4) : (encR3 o a b d f).fB = b := by
  apply BitVec.eq_of_getLsbD_eq
  intro i hi
  simp only [encR3, Opcode.fB, place,
    BitVec.getLsbD_append, BitVec.getLsbD_or, BitVec.getLsbD_and, BitVec.getLsbD_shiftLeft, BitVec.getLsbD_setWidth,
    BitVec.getLsbD_extractLsb']
  interval_cases i <;> simp

@[simp] theorem encR3_fD (o a b d f : BitVec 4) : (encR3 o a b d f).fD = d := by
  apply BitVec.eq_of_getLsbD_eq
  intro i hi
  simp only [encR3, Opcode.fD, place,
    BitVec.getLsbD_append, BitVec.getLsbD_or, BitVec.getLsbD_and, BitVec.getLsbD_shiftLeft, BitVec.getLsbD_setWidth,
    BitVec.getLsbD_extractLsb']
  interval_cases i <;> simp

@[simp] theorem encR2_fB (o : BitVec 8) (s d : BitVec 4) : (encR2 o s d).fB = s := by
  apply BitVec.eq_of_getLsbD_eq
  intro i hi
  simp only [encR2, Opcode.fB, place,
    BitVec.getLsbD_append, BitVec.getLsbD_or, BitVec.getLsbD_and, BitVec.getLsbD_shiftLeft, BitVec.getLsbD_setWidth,
    BitVec.getLsbD_extractLsb']
  interval_cases i <;> simp

@[simp] theorem encR2_fD (o : BitVec 8) (s d : BitVec 4) : (encR2 o s d).fD = d := by
  apply BitVec.eq_of_getLsbD_eq
  intro i hi
  simp only [encR2, Opcode.fD, place,
    BitVec.getLsbD_append, BitVec.getLsbD_or, BitVec.getLsbD_and, BitVec.getLsbD_shiftLeft, BitVec.getLsbD_setWidth,
    BitVec.getLsbD_extractLsb']
  interval_cases i <;> simp

@[simp] theorem encI8_fC8 (c : BitVec 8) (f : BitVec 3) (d : BitVec 4) : (encI8 c f d).fC8 = c := by
  apply BitVec.eq_of_getLsbD_eq
  intro i hi
  simp only [encI8, Opcode.fC8, placeC8, place,
    BitVec.getLsbD_append, BitVec.getLsbD_or, BitVec.getLsbD_and, BitVec.getLsbD_shiftLeft, BitVec.getLsbD_setWidth,
    BitVec.getLsbD_extractLsb']
  interval_cases i <;> simp

@[simp] theorem encI8_fD (c : BitVec 8) (f : BitVec 3) (d : BitVec 4) : (encI8 c f d).fD = d := by
  apply BitVec.eq_of_getLsbD_eq
  intro i hi
  simp only [encI8, Opcode.fD, placeC8, place,
    BitVec.getLsbD_append, BitVec.getLsbD_or, BitVec.getLsbD_and, BitVec.getLsbD_shiftLeft, BitVec.getLsbD_setWidth,
    BitVec.getLsbD_extractLsb']
  interval_cases i <;> simp

@[simp] theorem encI10_fC10 (c : BitVec 10) (e : BitVec 1) (r f : BitVec 4) : (encI10 c e r f).fC10 = c := by
  apply BitVec.eq_of_getLsbD_eq
  intro i hi
  simp only [encI10, Opcode.fC10, placeC10, place,
    BitVec.getLsbD_append, BitVec.getLsbD_or, BitVec.getLsbD_and, BitVec.getLsbD_shiftLeft, BitVec.getLsbD_setWidth,
    BitVec.getLsbD_extractLsb']
  interval_cases i <;> simp

@[simp] theorem encI10_fD (c : BitVec 10) (e : BitVec 1) (r f : BitVec 4) : (encI10 c e r f).fD = r := by
  apply BitVec.eq_of_getLsbD_eq
  intro i hi
  simp only [encI10, Opcode.fD, placeC10, place,
    BitVec.getLsbD_append, BitVec.getLsbD_or, BitVec.getLsbD_and, BitVec.getLsbD_shiftLeft, BitVec.getLsbD_setWidth,
    BitVec.getLsbD_extractLsb']
  interval_cases i <;> simp

@[simp] theorem encMD_fDa11 (c : BitVec 11) (r f : BitVec 4) : (encMD c r f).fDa11 = c := by
  apply BitVec.eq_of_getLsbD_eq
  intro i hi
  simp only [encMD, Opcode.fDa11, placeC11, place,
    BitVec.getLsbD_append, BitVec.getLsbD_or, BitVec.getLsbD_and, BitVec.getLsbD_shiftLeft, BitVec.getLsbD_setWidth,
    BitVec.getLsbD_extractLsb']
  interval_cases i <;> simp

@[simp] theorem encMD_fD (c : BitVec 11) (r f : BitVec 4) : (encMD c r f).fD = r := by
  apply BitVec.eq_of_getLsbD_eq
  intro i hi
  simp only [encMD, Opcode.fD, placeC11, place,
    BitVec.getLsbD_append, BitVec.getLsbD_or, BitVec.getLsbD_and, BitVec.getLsbD_shiftLeft, BitVec.getLsbD_setWidth,
    BitVec.getLsbD_extractLsb']
  interval_cases i <;> simp

@[simp] theorem encMO_fC8 (c : BitVec 8) (n : AddrNum) (r f : BitVec 4) : (encMO c n r f).fC8 = c := by
  apply BitVec.eq_of_getLsbD_eq
  intro i hi
  simp only [encMO, Opcode.fC8, placeC8, place,
    BitVec.getLsbD_append, BitVec.getLsbD_or, BitVec.getLsbD_and, BitVec.getLsbD_shiftLeft, BitVec.getLsbD_setWidth,
    BitVec.getLsbD_extractLsb']
  interval_cases i <;> simp

@[simp] theorem encMO_fAn (c : BitVec 8) (n : AddrNum) (r f : BitVec 4) : (encMO c n r f).fAn = n := by
  apply BitVec.eq_of_getLsbD_eq
  intro i hi
  simp only [encMO, Opcode.fAn, placeC8, place,
    BitVec.getLsbD_append, BitVec.getLsbD_or, BitVec.getLsbD_and, BitVec.getLsbD_shiftLeft, BitVec.getLsbD_setWidth,
    BitVec.getLsbD_extractLsb']
  interval_cases i <;> simp

@[simp] theorem encMO_fD (c : BitVec 8) (n : AddrNum) (r f : BitVec 4) : (encMO c n r f).fD = r := by
  apply BitVec.eq_of_getLsbD_eq
  intro i hi
  simp only [encMO, Opcode.fD, placeC8, place,
    BitVec.getLsbD_append, BitVec.getLsbD_or, BitVec.getLsbD_and, BitVec.getLsbD_shiftLeft, BitVec.getLsbD_setWidth,
    BitVec.getLsbD_extractLsb']
  interval_cases i <;> simp

@[simp] theorem encMA_fA (o x : BitVec 4) (b : BitVec 1) (n : AddrNum) (r f : BitVec 4) : (encMA o x b n r f).fA = x := by
  apply BitVec.eq_of_getLsbD_eq
  intro i hi
  simp only [encMA, Opcode.fA, place,
    BitVec.getLsbD_append, BitVec.getLsbD_or, BitVec.getLsbD_and, BitVec.getLsbD_shiftLeft, BitVec.getLsbD_setWidth,
    BitVec.getLsbD_extractLsb']
  interval_cases i <;> simp

@[simp] theorem encMA_fAn (o x : BitVec 4) (b : BitVec 1) (n : AddrNum) (r f : BitVec 4) : (encMA o x b n r f).fAn = n := by
  apply BitVec.eq_of_getLsbD_eq
  intro i hi
  simp only [encMA, Opcode.fAn, place,
    BitVec.getLsbD_append, BitVec.getLsbD_or, BitVec.getLsbD_and, BitVec.getLsbD_shiftLeft, BitVec.getLsbD_setWidth,
    BitVec.getLsbD_extractLsb']
  interval_cases i <;> simp

@[simp] theorem encMA_fD (o x : BitVec 4) (b : BitVec 1) (n : AddrNum) (r f : BitVec 4) : (encMA o x b n r f).fD = r := by
  apply BitVec.eq_of_getLsbD_eq
  intro i hi
  simp only [encMA, Opcode.fD, place,
    BitVec.getLsbD_append, BitVec.getLsbD_or, BitVec.getLsbD_and, BitVec.getLsbD_shiftLeft, BitVec.getLsbD_setWidth,
    BitVec.getLsbD_extractLsb']
  interval_cases i <;> simp

@[simp] theorem encMG_fAn (b : BitVec 1) (n : AddrNum) (g : BitVec 10) (f : BitVec 4) : (encMG b n g f).fAn = n := by
  apply BitVec.eq_of_getLsbD_eq
  intro i hi
  simp only [encMG, Opcode.fAn, place,
    BitVec.getLsbD_append, BitVec.getLsbD_or, BitVec.getLsbD_and, BitVec.getLsbD_shiftLeft, BitVec.getLsbD_setWidth,
    BitVec.getLsbD_extractLsb']
  interval_cases i <;> simp

@[simp] theorem encMG_fRgs (b : BitVec 1) (n : AddrNum) (g : BitVec 10) (f : BitVec 4) : (encMG b n g f).fRgs = g := by
  apply BitVec.eq_of_getLsbD_eq
  intro i hi
  simp only [encMG, Opcode.fRgs, place,
    BitVec.getLsbD_append, BitVec.getLsbD_or, BitVec.getLsbD_and, BitVec.getLsbD_shiftLeft, BitVec.getLsbD_setWidth,
    BitVec.getLsbD_extractLsb']
  interval_cases i <;> simp

@[simp] theorem encJ_fIa16 (i : Word) : (encJ i).fIa16 = i := by
  apply BitVec.eq_of_getLsbD_eq
  intro i hi
  simp only [encJ, Opcode.fIa16, place,
    BitVec.getLsbD_append, BitVec.getLsbD_or, BitVec.getLsbD_and, BitVec.getLsbD_shiftLeft, BitVec.getLsbD_setWidth,
    BitVec.getLsbD_extractLsb']
  interval_cases i <;> simp

@[simp] theorem encB14_fIo14 (j : BitVec 14) : (encB14 j).fIo14 = j := by
  apply BitVec.eq_of_getLsbD_eq
  intro i hi
  simp only [encB14, Opcode.fIo14, place,
    BitVec.getLsbD_append, BitVec.getLsbD_or, BitVec.getLsbD_and, BitVec.getLsbD_shiftLeft, BitVec.getLsbD_setWidth,
    BitVec.getLsbD_extractLsb']
  interval_cases i <;> simp

@[simp] theorem encB10_fIo10 (j : BitVec 10) (s : Bool) (c : BitVec 3) (f : BitVec 4) : (encB10 j s c f).fIo10 = j := by
  apply BitVec.eq_of_getLsbD_eq
  intro i hi
  simp only [encB10, Opcode.fIo10, place,
    BitVec.getLsbD_append, BitVec.getLsbD_or, BitVec.getLsbD_and, BitVec.getLsbD_shiftLeft, BitVec.getLsbD_setWidth,
    BitVec.getLsbD_extractLsb']
  interval_cases i <;> simp

@[simp] theorem encB10_fS (j : BitVec 10) (s : Bool) (c : BitVec 3) (f : BitVec 4) : (encB10 j s c f).fS = s := by
  cases s <;> simp [encB10, Opcode.fS, place]

/-! ## The fixed bits of an encoded word -/

theorem encR3_mask_F000F (o a b d f : BitVec 4) : encR3 o a b d f &&& 0xF000F#20 = encR3 o 0 0 0 f := by
  apply BitVec.eq_of_getLsbD_eq
  intro i hi
  simp only [encR3, place,
    BitVec.getLsbD_append, BitVec.getLsbD_or, BitVec.getLsbD_and, BitVec.getLsbD_shiftLeft, BitVec.getLsbD_setWidth,
    BitVec.getLsbD_extractLsb']
  interval_cases i <;> simp

theorem encR3_mask_F00FF (o a b d f : BitVec 4) : encR3 o a b d f &&& 0xF00FF#20 = encR3 o 0 0 d f := by
  apply BitVec.eq_of_getLsbD_eq
  intro i hi
  simp only [encR3, place,
    BitVec.getLsbD_append, BitVec.getLsbD_or, BitVec.getLsbD_and, BitVec.getLsbD_shiftLeft, BitVec.getLsbD_setWidth,
    BitVec.getLsbD_extractLsb']
  interval_cases i <;> simp

theorem encR2_mask_FF00F (o : BitVec 8) (s d : BitVec 4) : encR2 o s d &&& 0xFF00F#20 = encR2 o 0 0 := by
  apply BitVec.eq_of_getLsbD_eq
  intro i hi
  simp only [encR2, place,
    BitVec.getLsbD_append, BitVec.getLsbD_or, BitVec.getLsbD_and, BitVec.getLsbD_shiftLeft, BitVec.getLsbD_setWidth,
    BitVec.getLsbD_extractLsb']
  interval_cases i <;> simp

theorem encR2_mask_FF0FF (o : BitVec 8) (s d : BitVec 4) : encR2 o s d &&& 0xFF0FF#20 = encR2 o 0 d := by
  apply BitVec.eq_of_getLsbD_eq
  intro i hi
  simp only [encR2, place,
    BitVec.getLsbD_append, BitVec.getLsbD_or, BitVec.getLsbD_and, BitVec.getLsbD_shiftLeft, BitVec.getLsbD_setWidth,
    BitVec.getLsbD_extractLsb']
  interval_cases i <;> simp

theorem encR2_mask_FFF0F (o : BitVec 8) (s d : BitVec 4) : encR2 o s d &&& 0xFFF0F#20 = encR2 o s 0 := by
  apply BitVec.eq_of_getLsbD_eq
  intro i hi
  simp only [encR2, place,
    BitVec.getLsbD_append, BitVec.getLsbD_or, BitVec.getLsbD_and, BitVec.getLsbD_shiftLeft, BitVec.getLsbD_setWidth,
    BitVec.getLsbD_extractLsb']
  interval_cases i <;> simp

theorem encI8_mask_8070F (c : BitVec 8) (f : BitVec 3) (d : BitVec 4) : encI8 c f d &&& 0x8070F#20 = encI8 0 f 0 := by
  apply BitVec.eq_of_getLsbD_eq
  intro i hi
  simp only [encI8, placeC8, place,
    BitVec.getLsbD_append, BitVec.getLsbD_or, BitVec.getLsbD_and, BitVec.getLsbD_shiftLeft, BitVec.getLsbD_setWidth,
    BitVec.getLsbD_extractLsb']
  interval_cases i <;> simp

theorem encI10_mask_8010F (c : BitVec 10) (e : BitVec 1) (r f : BitVec 4) : encI10 c e r f &&& 0x8010F#20 = encI10 0 e 0 f := by
  apply BitVec.eq_of_getLsbD_eq
  intro i hi
  simp only [encI10, placeC10, place,
    BitVec.getLsbD_append, BitVec.getLsbD_or, BitVec.getLsbD_and, BitVec.getLsbD_shiftLeft, BitVec.getLsbD_setWidth,
    BitVec.getLsbD_extractLsb']
  interval_cases i <;> simp

theorem encMD_mask_8000F (c : BitVec 11) (r f : BitVec 4) : encMD c r f &&& 0x8000F#20 = encMD 0 0 f := by
  apply BitVec.eq_of_getLsbD_eq
  intro i hi
  simp only [encMD, placeC11, place,
    BitVec.getLsbD_append, BitVec.getLsbD_or, BitVec.getLsbD_and, BitVec.getLsbD_shiftLeft, BitVec.getLsbD_setWidth,
    BitVec.getLsbD_extractLsb']
  interval_cases i <;> simp

theorem encMO_mask_8000F (c : BitVec 8) (n : AddrNum) (r f : BitVec 4) : encMO c n r f &&& 0x8000F#20 = encMO 0 0 0 f := by
  apply BitVec.eq_of_getLsbD_eq
  intro i hi
  simp only [encMO, placeC8, place,
    BitVec.getLsbD_append, BitVec.getLsbD_or, BitVec.getLsbD_and, BitVec.getLsbD_shiftLeft, BitVec.getLsbD_setWidth,
    BitVec.getLsbD_extractLsb']
  interval_cases i <;> simp

theorem encMA_mask_F080F (o x : BitVec 4) (b : BitVec 1) (n : AddrNum) (r f : BitVec 4) : encMA o x b n r f &&& 0xF080F#20 = encMA o 0 b 0 0 f := by
  apply BitVec.eq_of_getLsbD_eq
  intro i hi
  simp only [encMA, place,
    BitVec.getLsbD_append, BitVec.getLsbD_or, BitVec.getLsbD_and, BitVec.getLsbD_shiftLeft, BitVec.getLsbD_setWidth,
    BitVec.getLsbD_extractLsb']
  interval_cases i <;> simp

theorem encMA_mask_FF80F (o x : BitVec 4) (b : BitVec 1) (n : AddrNum) (r f : BitVec 4) : encMA o x b n r f &&& 0xFF80F#20 = encMA o x b 0 0 f := by
  apply BitVec.eq_of_getLsbD_eq
  intro i hi
  simp only [encMA, place,
    BitVec.getLsbD_append, BitVec.getLsbD_or, BitVec.getLsbD_and, BitVec.getLsbD_shiftLeft, BitVec.getLsbD_setWidth,
    BitVec.getLsbD_extractLsb']
  interval_cases i <;> simp

theorem encMG_mask_C080F (b : BitVec 1) (n : AddrNum) (g : BitVec 10) (f : BitVec 4) : encMG b n g f &&& 0xC080F#20 = encMG b 0 0 f := by
  apply BitVec.eq_of_getLsbD_eq
  intro i hi
  simp only [encMG, place,
    BitVec.getLsbD_append, BitVec.getLsbD_or, BitVec.getLsbD_and, BitVec.getLsbD_shiftLeft, BitVec.getLsbD_setWidth,
    BitVec.getLsbD_extractLsb']
  interval_cases i <;> simp

theorem encJ_mask_C0003 (i : Word) : encJ i &&& 0xC0003#20 = encJ 0 := by
  apply BitVec.eq_of_getLsbD_eq
  intro i hi
  simp only [encJ, place,
    BitVec.getLsbD_append, BitVec.getLsbD_or, BitVec.getLsbD_and, BitVec.getLsbD_shiftLeft, BitVec.getLsbD_setWidth,
    BitVec.getLsbD_extractLsb']
  interval_cases i <;> simp

theorem encB14_mask_C000F (j : BitVec 14) : encB14 j &&& 0xC000F#20 = encB14 0 := by
  apply BitVec.eq_of_getLsbD_eq
  intro i hi
  simp only [encB14, place,
    BitVec.getLsbD_append, BitVec.getLsbD_or, BitVec.getLsbD_and, BitVec.getLsbD_shiftLeft, BitVec.getLsbD_setWidth,
    BitVec.getLsbD_extractLsb']
  interval_cases i <;> simp

theorem encB10_mask_C007F (j : BitVec 10) (s : Bool) (c : BitVec 3) (f : BitVec 4) : encB10 j s c f &&& 0xC007F#20 = encB10 0 false c f := by
  apply BitVec.eq_of_getLsbD_eq
  intro i hi
  simp only [encB10, place,
    BitVec.getLsbD_append, BitVec.getLsbD_or, BitVec.getLsbD_and, BitVec.getLsbD_shiftLeft, BitVec.getLsbD_setWidth,
    BitVec.getLsbD_extractLsb']
  interval_cases i <;> simp

theorem encB10_mask_C00FF (j : BitVec 10) (s : Bool) (c : BitVec 3) (f : BitVec 4) : encB10 j s c f &&& 0xC00FF#20 = encB10 0 s c f := by
  apply BitVec.eq_of_getLsbD_eq
  intro i hi
  simp only [encB10, place,
    BitVec.getLsbD_append, BitVec.getLsbD_or, BitVec.getLsbD_and, BitVec.getLsbD_shiftLeft, BitVec.getLsbD_setWidth,
    BitVec.getLsbD_extractLsb']
  interval_cases i <;> simp

/-! ## A word put together again from its fields -/

theorem encR3_fields_F000F (w : Opcode) (o : BitVec 4) (f : BitVec 4) :
    encR3 o w.fA w.fB w.fD f = encR3 o 0 0 0 f ||| (w &&& ~~~0xF000F#20) := by
  apply BitVec.eq_of_getLsbD_eq
  intro i hi
  simp only [encR3, Opcode.fA, Opcode.fB, Opcode.fD, place,
    BitVec.getLsbD_append, BitVec.getLsbD_or, BitVec.getLsbD_and, BitVec.getLsbD_shiftLeft, BitVec.getLsbD_setWidth,
    BitVec.getLsbD_extractLsb']
  interval_cases i <;> simp

theorem encR3_fields_F00FF (w : Opcode) (o : BitVec 4) (d : BitVec 4) (f : BitVec 4) :
    encR3 o w.fA w.fB d f = encR3 o 0 0 d f ||| (w &&& ~~~0xF00FF#20) := by
  apply BitVec.eq_of_getLsbD_eq
  intro i hi
  simp only [encR3, Opcode.fA, Opcode.fB, place,
    BitVec.getLsbD_append, BitVec.getLsbD_or, BitVec.getLsbD_and, BitVec.getLsbD_shiftLeft, BitVec.getLsbD_setWidth,
    BitVec.getLsbD_extractLsb']
  interval_cases i <;> simp

theorem encR2_fields_FF00F (w : Opcode) (o : BitVec 8) :
    encR2 o w.fB w.fD = encR2 o 0 0 ||| (w &&& ~~~0xFF00F#20) := by
  apply BitVec.eq_of_getLsbD_eq
  intro i hi
  simp only [encR2, Opcode.fB, Opcode.fD, place,
    BitVec.getLsbD_append, BitVec.getLsbD_or, BitVec.getLsbD_and, BitVec.getLsbD_shiftLeft, BitVec.getLsbD_setWidth,
    BitVec.getLsbD_extractLsb']
  interval_cases i <;> simp

theorem encR2_fields_FF0FF (w : Opcode) (o : BitVec 8) (d : BitVec 4) :
    encR2 o w.fB d = encR2 o 0 d ||| (w &&& ~~~0xFF0FF#20) := by
  apply BitVec.eq_of_getLsbD_eq
  intro i hi
  simp only [encR2, Opcode.fB, place,
    BitVec.getLsbD_append, BitVec.getLsbD_or, BitVec.getLsbD_and, BitVec.getLsbD_shiftLeft, BitVec.getLsbD_setWidth,
    BitVec.getLsbD_extractLsb']
  interval_cases i <;> simp

theorem encR2_fields_FFF0F (w : Opcode) (o : BitVec 8) (s : BitVec 4) :
    encR2 o s w.fD = encR2 o s 0 ||| (w &&& ~~~0xFFF0F#20) := by
  apply BitVec.eq_of_getLsbD_eq
  intro i hi
  simp only [encR2, Opcode.fD, place,
    BitVec.getLsbD_append, BitVec.getLsbD_or, BitVec.getLsbD_and, BitVec.getLsbD_shiftLeft, BitVec.getLsbD_setWidth,
    BitVec.getLsbD_extractLsb']
  interval_cases i <;> simp

theorem encI8_fields_8070F (w : Opcode) (f : BitVec 3) :
    encI8 w.fC8 f w.fD = encI8 0 f 0 ||| (w &&& ~~~0x8070F#20) := by
  apply BitVec.eq_of_getLsbD_eq
  intro i hi
  simp only [encI8, Opcode.fC8, Opcode.fD, placeC8, place,
    BitVec.getLsbD_append, BitVec.getLsbD_or, BitVec.getLsbD_and, BitVec.getLsbD_shiftLeft, BitVec.getLsbD_setWidth,
    BitVec.getLsbD_extractLsb']
  interval_cases i <;> simp

theorem encI10_fields_8010F (w : Opcode) (e : BitVec 1) (f : BitVec 4) :
    encI10 w.fC10 e w.fD f = encI10 0 e 0 f ||| (w &&& ~~~0x8010F#20) := by
  apply BitVec.eq_of_getLsbD_eq
  intro i hi
  simp only [encI10, Opcode.fC10, Opcode.fD, placeC10, place,
    BitVec.getLsbD_append, BitVec.getLsbD_or, BitVec.getLsbD_and, BitVec.getLsbD_shiftLeft, BitVec.getLsbD_setWidth,
    BitVec.getLsbD_extractLsb']
  interval_cases i <;> simp

theorem encMD_fields_8000F (w : Opcode) (f : BitVec 4) :
    encMD w.fDa11 w.fD f = encMD 0 0 f ||| (w &&& ~~~0x8000F#20) := by
  apply BitVec.eq_of_getLsbD_eq
  intro i hi
  simp only [encMD, Opcode.fDa11, Opcode.fD, placeC11, place,
    BitVec.getLsbD_append, BitVec.getLsbD_or, BitVec.getLsbD_and, BitVec.getLsbD_shiftLeft, BitVec.getLsbD_setWidth,
    BitVec.getLsbD_extractLsb']
  interval_cases i <;> simp

theorem encMO_fields_8000F (w : Opcode) (f : BitVec 4) :
    encMO w.fC8 w.fAn w.fD f = encMO 0 0 0 f ||| (w &&& ~~~0x8000F#20) := by
  apply BitVec.eq_of_getLsbD_eq
  intro i hi
  simp only [encMO, Opcode.fC8, Opcode.fAn, Opcode.fD, placeC8, place,
    BitVec.getLsbD_append, BitVec.getLsbD_or, BitVec.getLsbD_and, BitVec.getLsbD_shiftLeft, BitVec.getLsbD_setWidth,
    BitVec.getLsbD_extractLsb']
  interval_cases i <;> simp

theorem encMA_fields_F080F (w : Opcode) (o : BitVec 4) (b : BitVec 1) (f : BitVec 4) :
    encMA o w.fA b w.fAn w.fD f = encMA o 0 b 0 0 f ||| (w &&& ~~~0xF080F#20) := by
  apply BitVec.eq_of_getLsbD_eq
  intro i hi
  simp only [encMA, Opcode.fA, Opcode.fAn, Opcode.fD, place,
    BitVec.getLsbD_append, BitVec.getLsbD_or, BitVec.getLsbD_and, BitVec.getLsbD_shiftLeft, BitVec.getLsbD_setWidth,
    BitVec.getLsbD_extractLsb']
  interval_cases i <;> simp

theorem encMA_fields_FF80F (w : Opcode) (o : BitVec 4) (x : BitVec 4) (b : BitVec 1) (f : BitVec 4) :
    encMA o x b w.fAn w.fD f = encMA o x b 0 0 f ||| (w &&& ~~~0xFF80F#20) := by
  apply BitVec.eq_of_getLsbD_eq
  intro i hi
  simp only [encMA, Opcode.fAn, Opcode.fD, place,
    BitVec.getLsbD_append, BitVec.getLsbD_or, BitVec.getLsbD_and, BitVec.getLsbD_shiftLeft, BitVec.getLsbD_setWidth,
    BitVec.getLsbD_extractLsb']
  interval_cases i <;> simp

theorem encMG_fields_C080F (w : Opcode) (b : BitVec 1) (f : BitVec 4) :
    encMG b w.fAn w.fRgs f = encMG b 0 0 f ||| (w &&& ~~~0xC080F#20) := by
  apply BitVec.eq_of_getLsbD_eq
  intro i hi
  simp only [encMG, Opcode.fAn, Opcode.fRgs, place,
    BitVec.getLsbD_append, BitVec.getLsbD_or, BitVec.getLsbD_and, BitVec.getLsbD_shiftLeft, BitVec.getLsbD_setWidth,
    BitVec.getLsbD_extractLsb']
  interval_cases i <;> simp

theorem encJ_fields_C0003 (w : Opcode) :
    encJ w.fIa16 = encJ 0 ||| (w &&& ~~~0xC0003#20) := by
  apply BitVec.eq_of_getLsbD_eq
  intro i hi
  simp only [encJ, Opcode.fIa16, place,
    BitVec.getLsbD_append, BitVec.getLsbD_or, BitVec.getLsbD_and, BitVec.getLsbD_shiftLeft, BitVec.getLsbD_setWidth,
    BitVec.getLsbD_extractLsb']
  interval_cases i <;> simp

theorem encB14_fields_C000F (w : Opcode) :
    encB14 w.fIo14 = encB14 0 ||| (w &&& ~~~0xC000F#20) := by
  apply BitVec.eq_of_getLsbD_eq
  intro i hi
  simp only [encB14, Opcode.fIo14, place,
    BitVec.getLsbD_append, BitVec.getLsbD_or, BitVec.getLsbD_and, BitVec.getLsbD_shiftLeft, BitVec.getLsbD_setWidth,
    BitVec.getLsbD_extractLsb']
  interval_cases i <;> simp

theorem encB10_fields_C007F (w : Opcode) (c : BitVec 3) (f : BitVec 4) :
    encB10 w.fIo10 w.fS c f = encB10 0 false c f ||| (w &&& ~~~0xC007F#20) := by
  apply BitVec.eq_of_getLsbD_eq
  intro i hi
  simp only [encB10, Opcode.fIo10, Opcode.fS, place,
    BitVec.getLsbD_append, BitVec.getLsbD_or, BitVec.getLsbD_and, BitVec.getLsbD_shiftLeft, BitVec.getLsbD_setWidth,
    BitVec.getLsbD_extractLsb']
  interval_cases i <;> simp

theorem encB10_fields_C00FF (w : Opcode) (s : Bool) (c : BitVec 3) (f : BitVec 4) :
    encB10 w.fIo10 s c f = encB10 0 s c f ||| (w &&& ~~~0xC00FF#20) := by
  apply BitVec.eq_of_getLsbD_eq
  intro i hi
  simp only [encB10, Opcode.fIo10, place,
    BitVec.getLsbD_append, BitVec.getLsbD_or, BitVec.getLsbD_and, BitVec.getLsbD_shiftLeft, BitVec.getLsbD_setWidth,
    BitVec.getLsbD_extractLsb']
  interval_cases i <;> simp


/-! ## The table as a whole -/

/-- Two rows that no word matches both: some fixed bit differs. -/
def Row.apart (r q : Row) : Prop := r.mask &&& q.mask &&& (r.bits ^^^ q.bits) ≠ 0#20

theorem Row.apart_symm {r q : Row} (h : r.apart q) : q.apart r := by
  unfold Row.apart at *
  rwa [BitVec.and_comm q.mask, BitVec.xor_comm]

theorem Row.not_both {r q : Row} (h : r.apart q) {w : Opcode} (hr : r.covers w = true) (hq : q.covers w = true) :
    False := by
  simp only [Row.covers, beq_iff_eq] at hr hq
  apply h
  rw [← hr, ← hq]
  apply BitVec.eq_of_getLsbD_eq
  intro i _
  simp only [BitVec.getLsbD_and, BitVec.getLsbD_xor, BitVec.getLsbD_zero]
  cases w.getLsbD i <;> cases r.mask.getLsbD i <;> cases q.mask.getLsbD i <;> rfl

/-- The check of `Row.apart` over masks and match values. -/
def apartFrom (m b : Opcode) (l : List (Opcode × Opcode)) : Bool := l.all fun q => m &&& q.1 &&& (b ^^^ q.2) != 0#20

/-- The check of `Row.apart` for every two entries of a list. -/
def allApart : List (Opcode × Opcode) → Bool
  | [] => true
  | r :: l => apartFrom r.1 r.2 l && allApart l

theorem pairwise_of_allApart (l : List Row) (h : allApart (l.map fun r => (r.mask, r.bits)) = true) :
    l.Pairwise Row.apart := by
  induction l with
  | nil => exact .nil
  | cons r l ih =>
    simp only [List.map_cons, allApart, apartFrom, Bool.and_eq_true, List.all_map, List.all_eq_true, Function.comp,
      bne_iff_ne] at h
    exact .cons h.1 (ih h.2)

theorem codedRows_apart : codedRows.Pairwise Row.apart := pairwise_of_allApart _ (by decide +kernel)

theorem mlcuRow_apart (c : Config.MlcuFn3) : ∀ r ∈ codedRows, r.apart (mlcuRow c) := by
  have h : apartFrom (mlcuRow c).mask (mlcuRow c).bits (codedRows.map fun r => (r.mask, r.bits)) = true := by
    cases c <;> decide +kernel
  simp only [apartFrom, List.all_map, List.all_eq_true, Function.comp, bne_iff_ne] at h
  exact fun r hr => Row.apart_symm (h r hr)

theorem rows_apart (p : Option Config.MlcuFn3) : (rows p).Pairwise Row.apart := by
  unfold rows
  rw [List.pairwise_append]
  cases p with
  | none => exact ⟨codedRows_apart, by simp, by simp⟩
  | some c => exact ⟨codedRows_apart, by simp, fun r hr q hq => by simp at hq; exact hq ▸ mlcuRow_apart c r hr⟩

/-- In a list of rows apart from each other, the one row that covers a word is the one found. -/
theorem find_of_apart {l : List Row} (hl : l.Pairwise Row.apart) {r : Row} (hr : r ∈ l) {w : Opcode}
    (hc : r.covers w = true) : l.find? (·.covers w) = some r := by
  induction l with
  | nil => cases hr
  | cons q l ih =>
    rw [List.pairwise_cons] at hl
    rcases List.mem_cons.mp hr with rfl | hr
    · simp [hc]
    · have hq : q.covers w = false := by
        cases h : q.covers w
        · rfl
        · exact (Row.not_both (hl.1 r hr) h hc).elim
      simp only [List.find?_cons, hq]
      exact ih hl.2 hr

/-- Decoding reads the one row that covers the word. -/
theorem decodeWith_of_row {p : Option Config.MlcuFn3} {r : Row} (hr : r ∈ rows p) {w : Opcode}
    (hc : r.covers w = true) : decodeWith p w = .ok (r.build w) := by
  rw [decodeWith, find_of_apart (rows_apart p) hr hc]

/-- A word that decodes is covered by a row, which reads the operands. -/
theorem row_of_decodeWith {p : Option Config.MlcuFn3} {w : Opcode} {i : Instr} (h : decodeWith p w = .ok i) :
    ∃ r ∈ rows p, r.covers w = true ∧ r.build w = i := by
  unfold decodeWith at h
  split at h
  · rename_i r hr
    exact ⟨r, List.mem_of_find?_eq_some hr, by simpa using List.find?_some hr, by simpa using h⟩
  · cases h

end Sys2Proof
end

