-- ==== Sys2Proof/Laws/State.lean ====
section
/-! SUPPORT. One lemma per field per update of the state, and the reading of a register or a byte after each update, so
that no later proof unfolds a record update. -/

namespace Sys2Proof.Machine

variable (s : State)

/-! `setReg` -/

@[simp] theorem setReg_pc (r : RegNum) (v : Word) : (s.setReg r v).pc = s.pc := rfl
@[simp] theorem setReg_cc (r : RegNum) (v : Word) : (s.setReg r v).cc = s.cc := rfl
@[simp] theorem setReg_ivtp (r : RegNum) (v : Word) : (s.setReg r v).ivtp = s.ivtp := rfl
@[simp] theorem setReg_csIs (r : RegNum) (v : Word) : (s.setReg r v).csIs = s.csIs := rfl
@[simp] theorem setReg_csIe (r : RegNum) (v : Word) : (s.setReg r v).csIe = s.csIe := rfl
@[simp] theorem setReg_csIr (r : RegNum) (v : Word) : (s.setReg r v).csIr = s.csIr := rfl
@[simp] theorem setReg_lc (r : RegNum) (v : Word) : (s.setReg r v).lc = s.lc := rfl
@[simp] theorem setReg_u0 (r : RegNum) (v : Word) : (s.setReg r v).u0 = s.u0 := rfl
@[simp] theorem setReg_sa (r : RegNum) (v : Word) : (s.setReg r v).sa = s.sa := rfl
@[simp] theorem setReg_ia (r : RegNum) (v : Word) : (s.setReg r v).ia = s.ia := rfl
@[simp] theorem setReg_ta (r : RegNum) (v : Word) : (s.setReg r v).ta = s.ta := rfl
@[simp] theorem setReg_ccs (r : RegNum) (v : Word) : (s.setReg r v).ccs = s.ccs := rfl
@[simp] theorem setReg_run (r : RegNum) (v : Word) : (s.setReg r v).run = s.run := rfl
@[simp] theorem setReg_dbo (r : RegNum) (v : Word) : (s.setReg r v).dbo = s.dbo := rfl
@[simp] theorem setReg_dmem (r : RegNum) (v : Word) : (s.setReg r v).dmem = s.dmem := rfl
@[simp] theorem setReg_imem (r : RegNum) (v : Word) : (s.setReg r v).imem = s.imem := rfl
@[simp] theorem setReg_dbi (r : RegNum) (v : Word) : (s.setReg r v).dbi = s.dbi := rfl
@[simp] theorem setReg_inputs (r : RegNum) (v : Word) : (s.setReg r v).inputs = s.inputs := rfl
@[simp] theorem setReg_outputs (r : RegNum) (v : Word) : (s.setReg r v).outputs = s.outputs := rfl
theorem setReg_reg (r : RegNum) (v : Word) (q : RegNum) : (s.setReg r v).reg q = if q = r then v else s.reg q := by
  unfold State.reg State.setReg
  by_cases h : q = r
  · subst h; simp
  · have h' : r.toNat ≠ q.toNat := fun e => h (BitVec.eq_of_toNat_eq e.symm)
    simp [h, h']
@[simp] theorem setReg_reg_same (r : RegNum) (v : Word) : (s.setReg r v).reg r = v := by simp [setReg_reg]
theorem setReg_reg_ne {r q : RegNum} (v : Word) (h : q ≠ r) : (s.setReg r v).reg q = s.reg q := by simp [setReg_reg, h]
@[simp] theorem setReg_readByte (r : RegNum) (v : Word) (x : Word) : (s.setReg r v).readByte x = s.readByte x := by simp [State.readByte]
@[simp] theorem setReg_dataAt (r : RegNum) (v : Word) (z : Size) (x : Word) : (s.setReg r v).dataAt z x = s.dataAt z x := by cases z <;> simp [State.dataAt]

/-! `setPc` -/

@[simp] theorem setPc_regs (v : Word) : (s.setPc v).regs = s.regs := rfl
@[simp] theorem setPc_pc (v : Word) : (s.setPc v).pc = v := rfl
@[simp] theorem setPc_cc (v : Word) : (s.setPc v).cc = s.cc := rfl
@[simp] theorem setPc_ivtp (v : Word) : (s.setPc v).ivtp = s.ivtp := rfl
@[simp] theorem setPc_csIs (v : Word) : (s.setPc v).csIs = s.csIs := rfl
@[simp] theorem setPc_csIe (v : Word) : (s.setPc v).csIe = s.csIe := rfl
@[simp] theorem setPc_csIr (v : Word) : (s.setPc v).csIr = s.csIr := rfl
@[simp] theorem setPc_lc (v : Word) : (s.setPc v).lc = s.lc := rfl
@[simp] theorem setPc_u0 (v : Word) : (s.setPc v).u0 = s.u0 := rfl
@[simp] theorem setPc_sa (v : Word) : (s.setPc v).sa = s.sa := rfl
@[simp] theorem setPc_ia (v : Word) : (s.setPc v).ia = s.ia := rfl
@[simp] theorem setPc_ta (v : Word) : (s.setPc v).ta = s.ta := rfl
@[simp] theorem setPc_ccs (v : Word) : (s.setPc v).ccs = s.ccs := rfl
@[simp] theorem setPc_run (v : Word) : (s.setPc v).run = s.run := rfl
@[simp] theorem setPc_dbo (v : Word) : (s.setPc v).dbo = s.dbo := rfl
@[simp] theorem setPc_dmem (v : Word) : (s.setPc v).dmem = s.dmem := rfl
@[simp] theorem setPc_imem (v : Word) : (s.setPc v).imem = s.imem := rfl
@[simp] theorem setPc_dbi (v : Word) : (s.setPc v).dbi = s.dbi := rfl
@[simp] theorem setPc_inputs (v : Word) : (s.setPc v).inputs = s.inputs := rfl
@[simp] theorem setPc_outputs (v : Word) : (s.setPc v).outputs = s.outputs := rfl
@[simp] theorem setPc_reg (v : Word) (q : RegNum) : (s.setPc v).reg q = s.reg q := rfl
@[simp] theorem setPc_readByte (v : Word) (x : Word) : (s.setPc v).readByte x = s.readByte x := by simp [State.readByte]
@[simp] theorem setPc_dataAt (v : Word) (z : Size) (x : Word) : (s.setPc v).dataAt z x = s.dataAt z x := by cases z <;> simp [State.dataAt]

/-! `advance` -/

@[simp] theorem advance_regs : (s.advance).regs = s.regs := rfl
@[simp] theorem advance_pc : (s.advance).pc = s.pc + 1#16 := rfl
@[simp] theorem advance_cc : (s.advance).cc = s.cc := rfl
@[simp] theorem advance_ivtp : (s.advance).ivtp = s.ivtp := rfl
@[simp] theorem advance_csIs : (s.advance).csIs = s.csIs := rfl
@[simp] theorem advance_csIe : (s.advance).csIe = s.csIe := rfl
@[simp] theorem advance_csIr : (s.advance).csIr = s.csIr := rfl
@[simp] theorem advance_lc : (s.advance).lc = s.lc := rfl
@[simp] theorem advance_u0 : (s.advance).u0 = s.u0 := rfl
@[simp] theorem advance_sa : (s.advance).sa = s.sa := rfl
@[simp] theorem advance_ia : (s.advance).ia = s.ia := rfl
@[simp] theorem advance_ta : (s.advance).ta = s.ta := rfl
@[simp] theorem advance_ccs : (s.advance).ccs = s.ccs := rfl
@[simp] theorem advance_run : (s.advance).run = s.run := rfl
@[simp] theorem advance_dbo : (s.advance).dbo = s.dbo := rfl
@[simp] theorem advance_dmem : (s.advance).dmem = s.dmem := rfl
@[simp] theorem advance_imem : (s.advance).imem = s.imem := rfl
@[simp] theorem advance_dbi : (s.advance).dbi = s.dbi := rfl
@[simp] theorem advance_inputs : (s.advance).inputs = s.inputs := rfl
@[simp] theorem advance_outputs : (s.advance).outputs = s.outputs := rfl
@[simp] theorem advance_reg (q : RegNum) : (s.advance).reg q = s.reg q := rfl
@[simp] theorem advance_readByte (x : Word) : (s.advance).readByte x = s.readByte x := by simp [State.readByte]
@[simp] theorem advance_dataAt (z : Size) (x : Word) : (s.advance).dataAt z x = s.dataAt z x := by cases z <;> simp [State.dataAt]

/-! `setCC` -/

@[simp] theorem setCC_regs (f : Flags) : (s.setCC f).regs = s.regs := rfl
@[simp] theorem setCC_pc (f : Flags) : (s.setCC f).pc = s.pc := rfl
@[simp] theorem setCC_cc (f : Flags) : (s.setCC f).cc = f := rfl
@[simp] theorem setCC_ivtp (f : Flags) : (s.setCC f).ivtp = s.ivtp := rfl
@[simp] theorem setCC_csIs (f : Flags) : (s.setCC f).csIs = s.csIs := rfl
@[simp] theorem setCC_csIe (f : Flags) : (s.setCC f).csIe = s.csIe := rfl
@[simp] theorem setCC_csIr (f : Flags) : (s.setCC f).csIr = s.csIr := rfl
@[simp] theorem setCC_lc (f : Flags) : (s.setCC f).lc = s.lc := rfl
@[simp] theorem setCC_u0 (f : Flags) : (s.setCC f).u0 = s.u0 := rfl
@[simp] theorem setCC_sa (f : Flags) : (s.setCC f).sa = s.sa := rfl
@[simp] theorem setCC_ia (f : Flags) : (s.setCC f).ia = s.ia := rfl
@[simp] theorem setCC_ta (f : Flags) : (s.setCC f).ta = s.ta := rfl
@[simp] theorem setCC_ccs (f : Flags) : (s.setCC f).ccs = s.ccs := rfl
@[simp] theorem setCC_run (f : Flags) : (s.setCC f).run = s.run := rfl
@[simp] theorem setCC_dbo (f : Flags) : (s.setCC f).dbo = s.dbo := rfl
@[simp] theorem setCC_dmem (f : Flags) : (s.setCC f).dmem = s.dmem := rfl
@[simp] theorem setCC_imem (f : Flags) : (s.setCC f).imem = s.imem := rfl
@[simp] theorem setCC_dbi (f : Flags) : (s.setCC f).dbi = s.dbi := rfl
@[simp] theorem setCC_inputs (f : Flags) : (s.setCC f).inputs = s.inputs := rfl
@[simp] theorem setCC_outputs (f : Flags) : (s.setCC f).outputs = s.outputs := rfl
@[simp] theorem setCC_reg (f : Flags) (q : RegNum) : (s.setCC f).reg q = s.reg q := rfl
@[simp] theorem setCC_readByte (f : Flags) (x : Word) : (s.setCC f).readByte x = s.readByte x := by simp [State.readByte]
@[simp] theorem setCC_dataAt (f : Flags) (z : Size) (x : Word) : (s.setCC f).dataAt z x = s.dataAt z x := by cases z <;> simp [State.dataAt]

/-! `setSel` -/

@[simp] theorem setSel_pc (m : SelReg) (v : Word) : (s.setSel m v).pc = s.pc := by cases m <;> rfl
@[simp] theorem setSel_cc (m : SelReg) (v : Word) : (s.setSel m v).cc = s.cc := by cases m <;> rfl
@[simp] theorem setSel_ivtp (m : SelReg) (v : Word) : (s.setSel m v).ivtp = s.ivtp := by cases m <;> rfl
@[simp] theorem setSel_csIs (m : SelReg) (v : Word) : (s.setSel m v).csIs = s.csIs := by cases m <;> rfl
@[simp] theorem setSel_csIe (m : SelReg) (v : Word) : (s.setSel m v).csIe = s.csIe := by cases m <;> rfl
@[simp] theorem setSel_csIr (m : SelReg) (v : Word) : (s.setSel m v).csIr = s.csIr := by cases m <;> rfl
@[simp] theorem setSel_lc (m : SelReg) (v : Word) : (s.setSel m v).lc = s.lc := by cases m <;> rfl
@[simp] theorem setSel_u0 (m : SelReg) (v : Word) : (s.setSel m v).u0 = s.u0 := by cases m <;> rfl
@[simp] theorem setSel_ia (m : SelReg) (v : Word) : (s.setSel m v).ia = s.ia := by cases m <;> rfl
@[simp] theorem setSel_ta (m : SelReg) (v : Word) : (s.setSel m v).ta = s.ta := by cases m <;> rfl
@[simp] theorem setSel_ccs (m : SelReg) (v : Word) : (s.setSel m v).ccs = s.ccs := by cases m <;> rfl
@[simp] theorem setSel_run (m : SelReg) (v : Word) : (s.setSel m v).run = s.run := by cases m <;> rfl
@[simp] theorem setSel_dbo (m : SelReg) (v : Word) : (s.setSel m v).dbo = s.dbo := by cases m <;> rfl
@[simp] theorem setSel_dmem (m : SelReg) (v : Word) : (s.setSel m v).dmem = s.dmem := by cases m <;> rfl
@[simp] theorem setSel_imem (m : SelReg) (v : Word) : (s.setSel m v).imem = s.imem := by cases m <;> rfl
@[simp] theorem setSel_dbi (m : SelReg) (v : Word) : (s.setSel m v).dbi = s.dbi := by cases m <;> rfl
@[simp] theorem setSel_inputs (m : SelReg) (v : Word) : (s.setSel m v).inputs = s.inputs := by cases m <;> rfl
@[simp] theorem setSel_outputs (m : SelReg) (v : Word) : (s.setSel m v).outputs = s.outputs := by cases m <;> rfl
@[simp] theorem setSel_readByte (m : SelReg) (v : Word) (x : Word) : (s.setSel m v).readByte x = s.readByte x := by simp [State.readByte]
@[simp] theorem setSel_dataAt (m : SelReg) (v : Word) (z : Size) (x : Word) : (s.setSel m v).dataAt z x = s.dataAt z x := by cases z <;> simp [State.dataAt]

/-! `writeSR` -/

@[simp] theorem writeSR_regs (n : SReg) (v : Word) : (s.writeSR n v).regs = s.regs := by cases n <;> rfl
@[simp] theorem writeSR_pc (n : SReg) (v : Word) : (s.writeSR n v).pc = s.pc := by cases n <;> rfl
@[simp] theorem writeSR_csIs (n : SReg) (v : Word) : (s.writeSR n v).csIs = s.csIs := by cases n <;> rfl
@[simp] theorem writeSR_csIe (n : SReg) (v : Word) : (s.writeSR n v).csIe = s.csIe := by cases n <;> rfl
@[simp] theorem writeSR_csIr (n : SReg) (v : Word) : (s.writeSR n v).csIr = s.csIr := by cases n <;> rfl
@[simp] theorem writeSR_ccs (n : SReg) (v : Word) : (s.writeSR n v).ccs = s.ccs := by cases n <;> rfl
@[simp] theorem writeSR_run (n : SReg) (v : Word) : (s.writeSR n v).run = s.run := by cases n <;> rfl
@[simp] theorem writeSR_dbo (n : SReg) (v : Word) : (s.writeSR n v).dbo = s.dbo := by cases n <;> rfl
@[simp] theorem writeSR_dmem (n : SReg) (v : Word) : (s.writeSR n v).dmem = s.dmem := by cases n <;> rfl
@[simp] theorem writeSR_imem (n : SReg) (v : Word) : (s.writeSR n v).imem = s.imem := by cases n <;> rfl
@[simp] theorem writeSR_dbi (n : SReg) (v : Word) : (s.writeSR n v).dbi = s.dbi := by cases n <;> rfl
@[simp] theorem writeSR_inputs (n : SReg) (v : Word) : (s.writeSR n v).inputs = s.inputs := by cases n <;> rfl
@[simp] theorem writeSR_outputs (n : SReg) (v : Word) : (s.writeSR n v).outputs = s.outputs := by cases n <;> rfl
@[simp] theorem writeSR_reg (n : SReg) (v : Word) (q : RegNum) : (s.writeSR n v).reg q = s.reg q := by cases n <;> rfl
@[simp] theorem writeSR_readByte (n : SReg) (v : Word) (x : Word) : (s.writeSR n v).readByte x = s.readByte x := by simp [State.readByte]
@[simp] theorem writeSR_dataAt (n : SReg) (v : Word) (z : Size) (x : Word) : (s.writeSR n v).dataAt z x = s.dataAt z x := by cases z <;> simp [State.dataAt]

/-! `emit` -/

@[simp] theorem emit_regs (o : Output) : (s.emit o).regs = s.regs := rfl
@[simp] theorem emit_pc (o : Output) : (s.emit o).pc = s.pc := rfl
@[simp] theorem emit_cc (o : Output) : (s.emit o).cc = s.cc := rfl
@[simp] theorem emit_ivtp (o : Output) : (s.emit o).ivtp = s.ivtp := rfl
@[simp] theorem emit_csIs (o : Output) : (s.emit o).csIs = s.csIs := rfl
@[simp] theorem emit_csIe (o : Output) : (s.emit o).csIe = s.csIe := rfl
@[simp] theorem emit_csIr (o : Output) : (s.emit o).csIr = s.csIr := rfl
@[simp] theorem emit_lc (o : Output) : (s.emit o).lc = s.lc := rfl
@[simp] theorem emit_u0 (o : Output) : (s.emit o).u0 = s.u0 := rfl
@[simp] theorem emit_sa (o : Output) : (s.emit o).sa = s.sa := rfl
@[simp] theorem emit_ia (o : Output) : (s.emit o).ia = s.ia := rfl
@[simp] theorem emit_ta (o : Output) : (s.emit o).ta = s.ta := rfl
@[simp] theorem emit_ccs (o : Output) : (s.emit o).ccs = s.ccs := rfl
@[simp] theorem emit_run (o : Output) : (s.emit o).run = s.run := rfl
@[simp] theorem emit_dbo (o : Output) : (s.emit o).dbo = s.dbo := rfl
@[simp] theorem emit_dmem (o : Output) : (s.emit o).dmem = s.dmem := rfl
@[simp] theorem emit_imem (o : Output) : (s.emit o).imem = s.imem := rfl
@[simp] theorem emit_dbi (o : Output) : (s.emit o).dbi = s.dbi := rfl
@[simp] theorem emit_inputs (o : Output) : (s.emit o).inputs = s.inputs := rfl
@[simp] theorem emit_outputs (o : Output) : (s.emit o).outputs = o :: s.outputs := rfl
@[simp] theorem emit_reg (o : Output) (q : RegNum) : (s.emit o).reg q = s.reg q := rfl
@[simp] theorem emit_readByte (o : Output) (x : Word) : (s.emit o).readByte x = s.readByte x := by simp [State.readByte]
@[simp] theorem emit_dataAt (o : Output) (z : Size) (x : Word) : (s.emit o).dataAt z x = s.dataAt z x := by cases z <;> simp [State.dataAt]

/-! `dbgOut` -/

@[simp] theorem dbgOut_regs (v : Word) : (s.dbgOut v).regs = s.regs := rfl
@[simp] theorem dbgOut_pc (v : Word) : (s.dbgOut v).pc = s.pc := rfl
@[simp] theorem dbgOut_cc (v : Word) : (s.dbgOut v).cc = s.cc := rfl
@[simp] theorem dbgOut_ivtp (v : Word) : (s.dbgOut v).ivtp = s.ivtp := rfl
@[simp] theorem dbgOut_csIs (v : Word) : (s.dbgOut v).csIs = s.csIs := rfl
@[simp] theorem dbgOut_csIe (v : Word) : (s.dbgOut v).csIe = s.csIe := rfl
@[simp] theorem dbgOut_csIr (v : Word) : (s.dbgOut v).csIr = s.csIr := rfl
@[simp] theorem dbgOut_lc (v : Word) : (s.dbgOut v).lc = s.lc := rfl
@[simp] theorem dbgOut_u0 (v : Word) : (s.dbgOut v).u0 = s.u0 := rfl
@[simp] theorem dbgOut_sa (v : Word) : (s.dbgOut v).sa = s.sa := rfl
@[simp] theorem dbgOut_ia (v : Word) : (s.dbgOut v).ia = s.ia := rfl
@[simp] theorem dbgOut_ta (v : Word) : (s.dbgOut v).ta = s.ta := rfl
@[simp] theorem dbgOut_ccs (v : Word) : (s.dbgOut v).ccs = s.ccs := rfl
@[simp] theorem dbgOut_run (v : Word) : (s.dbgOut v).run = s.run := rfl
@[simp] theorem dbgOut_dbo (v : Word) : (s.dbgOut v).dbo = v := rfl
@[simp] theorem dbgOut_dmem (v : Word) : (s.dbgOut v).dmem = s.dmem := rfl
@[simp] theorem dbgOut_imem (v : Word) : (s.dbgOut v).imem = s.imem := rfl
@[simp] theorem dbgOut_dbi (v : Word) : (s.dbgOut v).dbi = s.dbi := rfl
@[simp] theorem dbgOut_inputs (v : Word) : (s.dbgOut v).inputs = s.inputs := rfl
@[simp] theorem dbgOut_outputs (v : Word) : (s.dbgOut v).outputs = .dbo v :: s.outputs := rfl
@[simp] theorem dbgOut_reg (v : Word) (q : RegNum) : (s.dbgOut v).reg q = s.reg q := rfl
@[simp] theorem dbgOut_readByte (v : Word) (x : Word) : (s.dbgOut v).readByte x = s.readByte x := by simp [State.readByte]
@[simp] theorem dbgOut_dataAt (v : Word) (z : Size) (x : Word) : (s.dbgOut v).dataAt z x = s.dataAt z x := by cases z <;> simp [State.dataAt]

/-! `putByte` -/

@[simp] theorem putByte_regs (a : Word) (b : Byte) : (s.putByte a b).regs = s.regs := rfl
@[simp] theorem putByte_pc (a : Word) (b : Byte) : (s.putByte a b).pc = s.pc := rfl
@[simp] theorem putByte_cc (a : Word) (b : Byte) : (s.putByte a b).cc = s.cc := rfl
@[simp] theorem putByte_ivtp (a : Word) (b : Byte) : (s.putByte a b).ivtp = s.ivtp := rfl
@[simp] theorem putByte_csIs (a : Word) (b : Byte) : (s.putByte a b).csIs = s.csIs := rfl
@[simp] theorem putByte_csIe (a : Word) (b : Byte) : (s.putByte a b).csIe = s.csIe := rfl
@[simp] theorem putByte_csIr (a : Word) (b : Byte) : (s.putByte a b).csIr = s.csIr := rfl
@[simp] theorem putByte_lc (a : Word) (b : Byte) : (s.putByte a b).lc = s.lc := rfl
@[simp] theorem putByte_u0 (a : Word) (b : Byte) : (s.putByte a b).u0 = s.u0 := rfl
@[simp] theorem putByte_sa (a : Word) (b : Byte) : (s.putByte a b).sa = s.sa := rfl
@[simp] theorem putByte_ia (a : Word) (b : Byte) : (s.putByte a b).ia = s.ia := rfl
@[simp] theorem putByte_ta (a : Word) (b : Byte) : (s.putByte a b).ta = s.ta := rfl
@[simp] theorem putByte_ccs (a : Word) (b : Byte) : (s.putByte a b).ccs = s.ccs := rfl
@[simp] theorem putByte_run (a : Word) (b : Byte) : (s.putByte a b).run = s.run := rfl
@[simp] theorem putByte_dbo (a : Word) (b : Byte) : (s.putByte a b).dbo = s.dbo := rfl
@[simp] theorem putByte_imem (a : Word) (b : Byte) : (s.putByte a b).imem = s.imem := rfl
@[simp] theorem putByte_dbi (a : Word) (b : Byte) : (s.putByte a b).dbi = s.dbi := rfl
@[simp] theorem putByte_inputs (a : Word) (b : Byte) : (s.putByte a b).inputs = s.inputs := rfl
@[simp] theorem putByte_outputs (a : Word) (b : Byte) : (s.putByte a b).outputs = s.outputs := rfl
@[simp] theorem putByte_reg (a : Word) (b : Byte) (q : RegNum) : (s.putByte a b).reg q = s.reg q := rfl

/-! `noteRead` -/

@[simp] theorem noteRead_regs (sz : Size) (a : Word) : (s.noteRead sz a).regs = s.regs := rfl
@[simp] theorem noteRead_pc (sz : Size) (a : Word) : (s.noteRead sz a).pc = s.pc := rfl
@[simp] theorem noteRead_cc (sz : Size) (a : Word) : (s.noteRead sz a).cc = s.cc := rfl
@[simp] theorem noteRead_ivtp (sz : Size) (a : Word) : (s.noteRead sz a).ivtp = s.ivtp := rfl
@[simp] theorem noteRead_csIs (sz : Size) (a : Word) : (s.noteRead sz a).csIs = s.csIs := rfl
@[simp] theorem noteRead_csIe (sz : Size) (a : Word) : (s.noteRead sz a).csIe = s.csIe := rfl
@[simp] theorem noteRead_csIr (sz : Size) (a : Word) : (s.noteRead sz a).csIr = s.csIr := rfl
@[simp] theorem noteRead_lc (sz : Size) (a : Word) : (s.noteRead sz a).lc = s.lc := rfl
@[simp] theorem noteRead_u0 (sz : Size) (a : Word) : (s.noteRead sz a).u0 = s.u0 := rfl
@[simp] theorem noteRead_sa (sz : Size) (a : Word) : (s.noteRead sz a).sa = s.sa := rfl
@[simp] theorem noteRead_ia (sz : Size) (a : Word) : (s.noteRead sz a).ia = s.ia := rfl
@[simp] theorem noteRead_ta (sz : Size) (a : Word) : (s.noteRead sz a).ta = s.ta := rfl
@[simp] theorem noteRead_ccs (sz : Size) (a : Word) : (s.noteRead sz a).ccs = s.ccs := rfl
@[simp] theorem noteRead_run (sz : Size) (a : Word) : (s.noteRead sz a).run = s.run := rfl
@[simp] theorem noteRead_dbo (sz : Size) (a : Word) : (s.noteRead sz a).dbo = s.dbo := rfl
@[simp] theorem noteRead_dmem (sz : Size) (a : Word) : (s.noteRead sz a).dmem = s.dmem := rfl
@[simp] theorem noteRead_imem (sz : Size) (a : Word) : (s.noteRead sz a).imem = s.imem := rfl
@[simp] theorem noteRead_dbi (sz : Size) (a : Word) : (s.noteRead sz a).dbi = s.dbi := rfl
@[simp] theorem noteRead_inputs (sz : Size) (a : Word) : (s.noteRead sz a).inputs = s.inputs := rfl
@[simp] theorem noteRead_outputs (sz : Size) (a : Word) : (s.noteRead sz a).outputs = .read sz a (s.dataAt sz a) :: s.outputs := rfl
@[simp] theorem noteRead_reg (sz : Size) (a : Word) (q : RegNum) : (s.noteRead sz a).reg q = s.reg q := rfl
@[simp] theorem noteRead_readByte (sz : Size) (a : Word) (x : Word) : (s.noteRead sz a).readByte x = s.readByte x := by simp [State.readByte]
@[simp] theorem noteRead_dataAt (sz : Size) (a : Word) (z : Size) (x : Word) : (s.noteRead sz a).dataAt z x = s.dataAt z x := by cases z <;> simp [State.dataAt]

/-! `memWrite` -/

@[simp] theorem memWrite_regs (sz : Size) (a v : Word) : (s.memWrite sz a v).regs = s.regs := by cases sz <;> rfl
@[simp] theorem memWrite_pc (sz : Size) (a v : Word) : (s.memWrite sz a v).pc = s.pc := by cases sz <;> rfl
@[simp] theorem memWrite_cc (sz : Size) (a v : Word) : (s.memWrite sz a v).cc = s.cc := by cases sz <;> rfl
@[simp] theorem memWrite_ivtp (sz : Size) (a v : Word) : (s.memWrite sz a v).ivtp = s.ivtp := by cases sz <;> rfl
@[simp] theorem memWrite_csIs (sz : Size) (a v : Word) : (s.memWrite sz a v).csIs = s.csIs := by cases sz <;> rfl
@[simp] theorem memWrite_csIe (sz : Size) (a v : Word) : (s.memWrite sz a v).csIe = s.csIe := by cases sz <;> rfl
@[simp] theorem memWrite_csIr (sz : Size) (a v : Word) : (s.memWrite sz a v).csIr = s.csIr := by cases sz <;> rfl
@[simp] theorem memWrite_lc (sz : Size) (a v : Word) : (s.memWrite sz a v).lc = s.lc := by cases sz <;> rfl
@[simp] theorem memWrite_u0 (sz : Size) (a v : Word) : (s.memWrite sz a v).u0 = s.u0 := by cases sz <;> rfl
@[simp] theorem memWrite_sa (sz : Size) (a v : Word) : (s.memWrite sz a v).sa = s.sa := by cases sz <;> rfl
@[simp] theorem memWrite_ia (sz : Size) (a v : Word) : (s.memWrite sz a v).ia = s.ia := by cases sz <;> rfl
@[simp] theorem memWrite_ta (sz : Size) (a v : Word) : (s.memWrite sz a v).ta = s.ta := by cases sz <;> rfl
@[simp] theorem memWrite_ccs (sz : Size) (a v : Word) : (s.memWrite sz a v).ccs = s.ccs := by cases sz <;> rfl
@[simp] theorem memWrite_run (sz : Size) (a v : Word) : (s.memWrite sz a v).run = s.run := by cases sz <;> rfl
@[simp] theorem memWrite_dbo (sz : Size) (a v : Word) : (s.memWrite sz a v).dbo = s.dbo := by cases sz <;> rfl
@[simp] theorem memWrite_imem (sz : Size) (a v : Word) : (s.memWrite sz a v).imem = s.imem := by cases sz <;> rfl
@[simp] theorem memWrite_dbi (sz : Size) (a v : Word) : (s.memWrite sz a v).dbi = s.dbi := by cases sz <;> rfl
@[simp] theorem memWrite_inputs (sz : Size) (a v : Word) : (s.memWrite sz a v).inputs = s.inputs := by cases sz <;> rfl
@[simp] theorem memWrite_reg (sz : Size) (a v : Word) (q : RegNum) : (s.memWrite sz a v).reg q = s.reg q := by cases sz <;> rfl

/-! `putInstr` -/

@[simp] theorem putInstr_regs (a : Word) (w : Opcode) : (s.putInstr a w).regs = s.regs := rfl
@[simp] theorem putInstr_pc (a : Word) (w : Opcode) : (s.putInstr a w).pc = s.pc := rfl
@[simp] theorem putInstr_cc (a : Word) (w : Opcode) : (s.putInstr a w).cc = s.cc := rfl
@[simp] theorem putInstr_ivtp (a : Word) (w : Opcode) : (s.putInstr a w).ivtp = s.ivtp := rfl
@[simp] theorem putInstr_csIs (a : Word) (w : Opcode) : (s.putInstr a w).csIs = s.csIs := rfl
@[simp] theorem putInstr_csIe (a : Word) (w : Opcode) : (s.putInstr a w).csIe = s.csIe := rfl
@[simp] theorem putInstr_csIr (a : Word) (w : Opcode) : (s.putInstr a w).csIr = s.csIr := rfl
@[simp] theorem putInstr_lc (a : Word) (w : Opcode) : (s.putInstr a w).lc = s.lc := rfl
@[simp] theorem putInstr_u0 (a : Word) (w : Opcode) : (s.putInstr a w).u0 = s.u0 := rfl
@[simp] theorem putInstr_sa (a : Word) (w : Opcode) : (s.putInstr a w).sa = s.sa := rfl
@[simp] theorem putInstr_ia (a : Word) (w : Opcode) : (s.putInstr a w).ia = s.ia := rfl
@[simp] theorem putInstr_ta (a : Word) (w : Opcode) : (s.putInstr a w).ta = s.ta := rfl
@[simp] theorem putInstr_ccs (a : Word) (w : Opcode) : (s.putInstr a w).ccs = s.ccs := rfl
@[simp] theorem putInstr_run (a : Word) (w : Opcode) : (s.putInstr a w).run = s.run := rfl
@[simp] theorem putInstr_dbo (a : Word) (w : Opcode) : (s.putInstr a w).dbo = s.dbo := rfl
@[simp] theorem putInstr_dmem (a : Word) (w : Opcode) : (s.putInstr a w).dmem = s.dmem := rfl
@[simp] theorem putInstr_dbi (a : Word) (w : Opcode) : (s.putInstr a w).dbi = s.dbi := rfl
@[simp] theorem putInstr_inputs (a : Word) (w : Opcode) : (s.putInstr a w).inputs = s.inputs := rfl
@[simp] theorem putInstr_outputs (a : Word) (w : Opcode) : (s.putInstr a w).outputs = s.outputs := rfl
@[simp] theorem putInstr_reg (a : Word) (w : Opcode) (q : RegNum) : (s.putInstr a w).reg q = s.reg q := rfl
@[simp] theorem putInstr_readByte (a : Word) (w : Opcode) (x : Word) : (s.putInstr a w).readByte x = s.readByte x := by simp [State.readByte]
@[simp] theorem putInstr_dataAt (a : Word) (w : Opcode) (z : Size) (x : Word) : (s.putInstr a w).dataAt z x = s.dataAt z x := by cases z <;> simp [State.dataAt]

/-! `finish` -/

@[simp] theorem finish_pc (rd : RegNum) (v : Word) : (s.finish rd v).pc = s.pc + 1#16 := rfl
@[simp] theorem finish_cc (rd : RegNum) (v : Word) : (s.finish rd v).cc = s.cc := rfl
@[simp] theorem finish_ivtp (rd : RegNum) (v : Word) : (s.finish rd v).ivtp = s.ivtp := rfl
@[simp] theorem finish_csIs (rd : RegNum) (v : Word) : (s.finish rd v).csIs = s.csIs := rfl
@[simp] theorem finish_csIe (rd : RegNum) (v : Word) : (s.finish rd v).csIe = s.csIe := rfl
@[simp] theorem finish_csIr (rd : RegNum) (v : Word) : (s.finish rd v).csIr = s.csIr := rfl
@[simp] theorem finish_lc (rd : RegNum) (v : Word) : (s.finish rd v).lc = s.lc := rfl
@[simp] theorem finish_u0 (rd : RegNum) (v : Word) : (s.finish rd v).u0 = s.u0 := rfl
@[simp] theorem finish_sa (rd : RegNum) (v : Word) : (s.finish rd v).sa = s.sa := rfl
@[simp] theorem finish_ia (rd : RegNum) (v : Word) : (s.finish rd v).ia = s.ia := rfl
@[simp] theorem finish_ta (rd : RegNum) (v : Word) : (s.finish rd v).ta = s.ta := rfl
@[simp] theorem finish_ccs (rd : RegNum) (v : Word) : (s.finish rd v).ccs = s.ccs := rfl
@[simp] theorem finish_run (rd : RegNum) (v : Word) : (s.finish rd v).run = s.run := rfl
@[simp] theorem finish_dbo (rd : RegNum) (v : Word) : (s.finish rd v).dbo = s.dbo := rfl
@[simp] theorem finish_dmem (rd : RegNum) (v : Word) : (s.finish rd v).dmem = s.dmem := rfl
@[simp] theorem finish_imem (rd : RegNum) (v : Word) : (s.finish rd v).imem = s.imem := rfl
@[simp] theorem finish_dbi (rd : RegNum) (v : Word) : (s.finish rd v).dbi = s.dbi := rfl
@[simp] theorem finish_inputs (rd : RegNum) (v : Word) : (s.finish rd v).inputs = s.inputs := rfl
@[simp] theorem finish_outputs (rd : RegNum) (v : Word) : (s.finish rd v).outputs = s.outputs := rfl
@[simp] theorem finish_reg (rd : RegNum) (v : Word) (q : RegNum) : (s.finish rd v).reg q = if q = rd then v else s.reg q := setReg_reg s rd v q
@[simp] theorem finish_readByte (rd : RegNum) (v : Word) (x : Word) : (s.finish rd v).readByte x = s.readByte x := by simp [State.readByte]
@[simp] theorem finish_dataAt (rd : RegNum) (v : Word) (z : Size) (x : Word) : (s.finish rd v).dataAt z x = s.dataAt z x := by cases z <;> simp [State.dataAt]

/-! `finishCC` -/

@[simp] theorem finishCC_pc (rd : RegNum) (v : Word) (f : Flags) : (s.finishCC rd v f).pc = s.pc + 1#16 := rfl
@[simp] theorem finishCC_cc (rd : RegNum) (v : Word) (f : Flags) : (s.finishCC rd v f).cc = f := rfl
@[simp] theorem finishCC_ivtp (rd : RegNum) (v : Word) (f : Flags) : (s.finishCC rd v f).ivtp = s.ivtp := rfl
@[simp] theorem finishCC_csIs (rd : RegNum) (v : Word) (f : Flags) : (s.finishCC rd v f).csIs = s.csIs := rfl
@[simp] theorem finishCC_csIe (rd : RegNum) (v : Word) (f : Flags) : (s.finishCC rd v f).csIe = s.csIe := rfl
@[simp] theorem finishCC_csIr (rd : RegNum) (v : Word) (f : Flags) : (s.finishCC rd v f).csIr = s.csIr := rfl
@[simp] theorem finishCC_lc (rd : RegNum) (v : Word) (f : Flags) : (s.finishCC rd v f).lc = s.lc := rfl
@[simp] theorem finishCC_u0 (rd : RegNum) (v : Word) (f : Flags) : (s.finishCC rd v f).u0 = s.u0 := rfl
@[simp] theorem finishCC_sa (rd : RegNum) (v : Word) (f : Flags) : (s.finishCC rd v f).sa = s.sa := rfl
@[simp] theorem finishCC_ia (rd : RegNum) (v : Word) (f : Flags) : (s.finishCC rd v f).ia = s.ia := rfl
@[simp] theorem finishCC_ta (rd : RegNum) (v : Word) (f : Flags) : (s.finishCC rd v f).ta = s.ta := rfl
@[simp] theorem finishCC_ccs (rd : RegNum) (v : Word) (f : Flags) : (s.finishCC rd v f).ccs = s.ccs := rfl
@[simp] theorem finishCC_run (rd : RegNum) (v : Word) (f : Flags) : (s.finishCC rd v f).run = s.run := rfl
@[simp] theorem finishCC_dbo (rd : RegNum) (v : Word) (f : Flags) : (s.finishCC rd v f).dbo = s.dbo := rfl
@[simp] theorem finishCC_dmem (rd : RegNum) (v : Word) (f : Flags) : (s.finishCC rd v f).dmem = s.dmem := rfl
@[simp] theorem finishCC_imem (rd : RegNum) (v : Word) (f : Flags) : (s.finishCC rd v f).imem = s.imem := rfl
@[simp] theorem finishCC_dbi (rd : RegNum) (v : Word) (f : Flags) : (s.finishCC rd v f).dbi = s.dbi := rfl
@[simp] theorem finishCC_inputs (rd : RegNum) (v : Word) (f : Flags) : (s.finishCC rd v f).inputs = s.inputs := rfl
@[simp] theorem finishCC_outputs (rd : RegNum) (v : Word) (f : Flags) : (s.finishCC rd v f).outputs = s.outputs := rfl
@[simp] theorem finishCC_reg (rd : RegNum) (v : Word) (f : Flags) (q : RegNum) : (s.finishCC rd v f).reg q = if q = rd then v else s.reg q := setReg_reg s rd v q
@[simp] theorem finishCC_readByte (rd : RegNum) (v : Word) (f : Flags) (x : Word) : (s.finishCC rd v f).readByte x = s.readByte x := by simp [State.readByte]
@[simp] theorem finishCC_dataAt (rd : RegNum) (v : Word) (f : Flags) (z : Size) (x : Word) : (s.finishCC rd v f).dataAt z x = s.dataAt z x := by cases z <;> simp [State.dataAt]

/-! `finishTest` -/

@[simp] theorem finishTest_regs (f : Flags) : (s.finishTest f).regs = s.regs := rfl
@[simp] theorem finishTest_pc (f : Flags) : (s.finishTest f).pc = s.pc + 1#16 := rfl
@[simp] theorem finishTest_cc (f : Flags) : (s.finishTest f).cc = f := rfl
@[simp] theorem finishTest_ivtp (f : Flags) : (s.finishTest f).ivtp = s.ivtp := rfl
@[simp] theorem finishTest_csIs (f : Flags) : (s.finishTest f).csIs = s.csIs := rfl
@[simp] theorem finishTest_csIe (f : Flags) : (s.finishTest f).csIe = s.csIe := rfl
@[simp] theorem finishTest_csIr (f : Flags) : (s.finishTest f).csIr = s.csIr := rfl
@[simp] theorem finishTest_lc (f : Flags) : (s.finishTest f).lc = s.lc := rfl
@[simp] theorem finishTest_u0 (f : Flags) : (s.finishTest f).u0 = s.u0 := rfl
@[simp] theorem finishTest_sa (f : Flags) : (s.finishTest f).sa = s.sa := rfl
@[simp] theorem finishTest_ia (f : Flags) : (s.finishTest f).ia = s.ia := rfl
@[simp] theorem finishTest_ta (f : Flags) : (s.finishTest f).ta = s.ta := rfl
@[simp] theorem finishTest_ccs (f : Flags) : (s.finishTest f).ccs = s.ccs := rfl
@[simp] theorem finishTest_run (f : Flags) : (s.finishTest f).run = s.run := rfl
@[simp] theorem finishTest_dbo (f : Flags) : (s.finishTest f).dbo = s.dbo := rfl
@[simp] theorem finishTest_dmem (f : Flags) : (s.finishTest f).dmem = s.dmem := rfl
@[simp] theorem finishTest_imem (f : Flags) : (s.finishTest f).imem = s.imem := rfl
@[simp] theorem finishTest_dbi (f : Flags) : (s.finishTest f).dbi = s.dbi := rfl
@[simp] theorem finishTest_inputs (f : Flags) : (s.finishTest f).inputs = s.inputs := rfl
@[simp] theorem finishTest_outputs (f : Flags) : (s.finishTest f).outputs = s.outputs := rfl
@[simp] theorem finishTest_reg (f : Flags) (q : RegNum) : (s.finishTest f).reg q = s.reg q := rfl
@[simp] theorem finishTest_readByte (f : Flags) (x : Word) : (s.finishTest f).readByte x = s.readByte x := by simp [State.readByte]
@[simp] theorem finishTest_dataAt (f : Flags) (z : Size) (x : Word) : (s.finishTest f).dataAt z x = s.dataAt z x := by cases z <;> simp [State.dataAt]

end Sys2Proof.Machine
end

