-- ==== Sys2Proof/Laws/Memory.lean ====
section
/-! SUPPORT. The laws of the memories: a read after a write, and the canonical form, which every operation on a memory
keeps. -/

namespace Sys2Proof.Machine

variable {α : Type}

theorem Memory.find_put (a b : Nat) (v : α) (m : List (Nat × α)) :
    Memory.find b (Memory.put a v m) = if b = a then some v else Memory.find b m := by
  induction m with
  | nil => simp [Memory.put, Memory.find]
  | cons e m ih =>
    obtain ⟨c, w⟩ := e
    unfold Memory.put
    split
    · simp [Memory.find]
    · split
      · subst_vars
        simp only [Memory.find]
        split <;> rfl
      · simp only [Memory.find, ih]
        by_cases hb : b = c
        · have : b ≠ a := by omega
          simp [hb]; omega
        · simp [hb]

theorem Memory.wfFrom_mono {lo lo' : Nat} (h : lo' ≤ lo) (m : List (Nat × α)) (hm : Memory.wfFrom lo m = true) :
    Memory.wfFrom lo' m = true := by
  cases m with
  | nil => rfl
  | cons e m =>
    simp only [Memory.wfFrom, Bool.and_eq_true, decide_eq_true_eq] at hm ⊢
    exact ⟨⟨by omega, hm.1.2⟩, hm.2⟩

theorem Memory.put_wfFrom (a : Nat) (v : α) (ha : a < 65536) (m : List (Nat × α)) :
    ∀ lo, lo ≤ a → Memory.wfFrom lo m = true → Memory.wfFrom lo (Memory.put a v m) = true := by
  induction m with
  | nil => intro lo h _; simp [Memory.put, Memory.wfFrom, h, ha]
  | cons e m ih =>
    intro lo h hm
    obtain ⟨c, w⟩ := e
    simp only [Memory.wfFrom, Bool.and_eq_true, decide_eq_true_eq] at hm
    unfold Memory.put
    split
    · simp only [Memory.wfFrom, Bool.and_eq_true, decide_eq_true_eq]
      exact ⟨⟨h, ha⟩, ⟨by omega, hm.1.2⟩, hm.2⟩
    · split
      · subst_vars
        simp only [Memory.wfFrom, Bool.and_eq_true, decide_eq_true_eq]
        exact ⟨⟨h, ha⟩, hm.2⟩
      · simp only [Memory.wfFrom, Bool.and_eq_true, decide_eq_true_eq]
        exact ⟨hm.1, ih (c + 1) (by omega) hm.2⟩

/-- A write keeps the canonical form. -/
theorem Memory.put_wf (a : Nat) (v : α) (ha : a < 65536) (m : List (Nat × α)) (hm : Memory.wf m = true) :
    Memory.wf (Memory.put a v m) = true :=
  Memory.put_wfFrom a v ha m 0 (Nat.zero_le a) hm

/-! ## One byte of data memory -/

theorem putByte_readByte (s : State) (a : Word) (b : Byte) (x : Word) :
    (s.putByte a b).readByte x = if x = a then b else s.readByte x := by
  unfold State.readByte State.putByte
  rw [Memory.find_put]
  by_cases h : x = a
  · subst h; simp
  · have : x.toNat ≠ a.toNat := fun e => h (BitVec.eq_of_toNat_eq e)
    simp [h, this]

theorem putByte_wf (s : State) (a : Word) (b : Byte) (h : Memory.wf s.dmem = true) :
    Memory.wf (s.putByte a b).dmem = true := Memory.put_wf _ _ a.isLt _ h

theorem putInstr_wf (s : State) (a : Word) (w : Opcode) (h : Memory.wf s.imem = true) :
    Memory.wf (s.putInstr a w).imem = true := Memory.put_wf _ _ a.isLt _ h

theorem putInstr_find (s : State) (a : Word) (w : Opcode) (x : Word) :
    Memory.find x.toNat (s.putInstr a w).imem = if x = a then some w else Memory.find x.toNat s.imem := by
  unfold State.putInstr
  rw [Memory.find_put]
  by_cases h : x = a
  · subst h; simp
  · have : x.toNat ≠ a.toNat := fun e => h (BitVec.eq_of_toNat_eq e)
    simp [h, this]

/-! ## Accesses -/

theorem memWrite_wf (s : State) (sz : Size) (a v : Word) (h : Memory.wf s.dmem = true) :
    Memory.wf (s.memWrite sz a v).dmem = true := by
  cases sz
  · exact putByte_wf _ _ _ (by simpa using h)
  · exact putByte_wf _ _ _ (putByte_wf _ _ _ (by simpa using h))

/-- The two bytes of an aligned short are different bytes. -/
theorem aligned_ne_succ (a : Word) : aligned a ≠ aligned a + 1#16 := by
  intro h
  have := congrArg BitVec.toNat h
  simp at this
  omega

theorem memWrite_byte_readByte (s : State) (a v x : Word) :
    (s.memWrite .byte a v).readByte x = if x = a then v.extractLsb' 0 8 else s.readByte x := by
  simp [State.memWrite, putByte_readByte]

theorem memWrite_short_readByte (s : State) (a v x : Word) :
    (s.memWrite .short a v).readByte x =
      if x = aligned a + 1#16 then v.extractLsb' 8 8
      else if x = aligned a then v.extractLsb' 0 8 else s.readByte x := by
  simp [State.memWrite, putByte_readByte]

@[simp] theorem memWrite_outputs (s : State) (sz : Size) (a v : Word) :
    (s.memWrite sz a v).outputs = .write sz a (truncated sz v) :: s.outputs := by
  cases sz <;> simp [State.memWrite, truncated, State.putByte, State.emit]

/-- A short that was just written reads back. -/
theorem memWrite_short_dataAt (s : State) (a v : Word) : (s.memWrite .short a v).dataAt .short a = v := by
  have h := aligned_ne_succ a
  simp only [State.dataAt, memWrite_short_readByte, if_true, if_neg h]
  apply BitVec.eq_of_getLsbD_eq
  intro i hi
  by_cases h8 : i < 8
  · simp [zext, h8, hi]
  · have : 8 + (i - 8) = i := by omega
    simp [zext, h8, this, hi, show i - 8 < 8 by omega]

/-- A byte that was just written reads back, zero-extended. -/
theorem memWrite_byte_dataAt (s : State) (a v : Word) :
    (s.memWrite .byte a v).dataAt .byte a = zext (v.extractLsb' 0 8) := by
  simp [State.dataAt, memWrite_byte_readByte]

theorem loadUp_memory (sz : Size) (l : List SelReg) :
    ∀ (eda : Word) (s : State), (loadUp sz l eda s).dmem = s.dmem ∧ (loadUp sz l eda s).imem = s.imem := by
  induction l with
  | nil => intro eda s; exact ⟨rfl, rfl⟩
  | cons r l ih =>
    intro eda s
    obtain ⟨hd, hi⟩ := ih (eda + sizeBytes sz) ((s.noteRead sz eda).setSel r (s.dataAt sz eda))
    exact ⟨by simpa [loadUp] using hd, by simpa [loadUp] using hi⟩

theorem loadDown_memory (sz : Size) (l : List SelReg) :
    ∀ (eda : Word) (s : State), (loadDown sz l eda s).dmem = s.dmem ∧ (loadDown sz l eda s).imem = s.imem := by
  induction l with
  | nil => intro eda s; exact ⟨rfl, rfl⟩
  | cons r l ih =>
    intro eda s
    obtain ⟨hd, hi⟩ := ih (eda - sizeBytes sz) ((s.noteRead sz (eda - sizeBytes sz)).setSel r (s.dataAt sz (eda - sizeBytes sz)))
    exact ⟨by simpa [loadDown] using hd, by simpa [loadDown] using hi⟩

theorem storeUp_memory (sz : Size) (l : List SelReg) :
    ∀ (eda : Word) (s : State), Memory.wf s.dmem = true →
      Memory.wf (storeUp sz l eda s).dmem = true ∧ (storeUp sz l eda s).imem = s.imem := by
  induction l with
  | nil => intro eda s h; exact ⟨h, rfl⟩
  | cons r l ih =>
    intro eda s h
    simpa [storeUp] using ih (eda + sizeBytes sz) _ (memWrite_wf s sz eda (s.sel r) h)

theorem storeDown_memory (sz : Size) (l : List SelReg) :
    ∀ (eda : Word) (s : State), Memory.wf s.dmem = true →
      Memory.wf (storeDown sz l eda s).dmem = true ∧ (storeDown sz l eda s).imem = s.imem := by
  induction l with
  | nil => intro eda s h; exact ⟨h, rfl⟩
  | cons r l ih =>
    intro eda s h
    simpa [storeDown] using ih (eda - sizeBytes sz) _ (memWrite_wf s sz (eda - sizeBytes sz) (s.sel r) h)

/-- The memories right after reset are in canonical form. -/
theorem reset_memories_wf : Memory.wf State.reset.dmem = true ∧ Memory.wf State.reset.imem = true := ⟨rfl, rfl⟩

end Sys2Proof.Machine
end

