-- ==== Sys2Proof/Laws/Ops.lean ====
section
/-! SUPPORT. One lemma per shared operation that says once everything the operation can do, in the terms of Safety.lean. -/

namespace Sys2Proof.Machine

/-! ## Frames in general -/

theorem Kept.refl (s : State) (l : List Part) : Kept s s l := by
  intro p _
  cases p <;> rfl

theorem Kept.mono {s t : State} {l m : List Part} (h : Kept s t l) (hlm : ∀ p ∈ l, p ∈ m) : Kept s t m :=
  fun p hp => h p fun hl => hp (hlm p hl)

theorem Kept.reg {s t : State} {l : List Part} (h : Kept s t l) {r : RegNum} (hr : Part.reg r ∉ l) : t.reg r = s.reg r :=
  h _ hr

theorem Kept.readByte {s t : State} {l : List Part} (h : Kept s t l) {a : Word} (ha : Part.byte a ∉ l) :
    t.readByte a = s.readByte a :=
  h _ ha

theorem Part.Same.trans {p : Part} {s t u : State} (h : p.Same s t) (h' : p.Same t u) : p.Same s u := by
  cases p <;> exact Eq.trans h' h

theorem Kept.trans {s t u : State} {l m : List Part} (h : Kept s t l) (h' : Kept t u m) : Kept s u (l ++ m) := by
  intro p hp
  simp only [List.mem_append, not_or] at hp
  exact (h p hp.1).trans (h' p hp.2)

theorem inSequence_of_succ {s t : State} (h : t.pc = s.pc + 1#16) : InSequence s t := by
  intro hs
  rw [h, BitVec.toNat_add]
  simp
  omega

/-! ## Results of computation instructions -/

theorem finish_kept (s : State) (rd : RegNum) (v : Word) : Kept s (s.finish rd v) [.reg rd, .pc] := by
  intro p hp
  cases p <;> simp_all [Part.Same]

/-- `finish` writes Rd and goes on in sequence, and that is all. -/
theorem puts_of_finish {i : Instr} {s : State} {rd : RegNum} {v w : Word} (h : exec i s = .next (s.finish rd v))
    (hv : v = w) : Puts i s rd w :=
  ⟨_, h, by simp [hv], inSequence_of_succ (by simp), finish_kept s rd v⟩

theorem finishCC_kept (s : State) (rd : RegNum) (v : Word) (f : Flags) :
    Kept s (s.finishCC rd v f) [.reg rd, .cc, .pc] := by
  intro p hp
  cases p <;> simp_all [Part.Same]

/-- `finishCC` writes Rd and CC and goes on in sequence, and that is all. -/
theorem putsCC_of_finishCC {i : Instr} {s : State} {rd : RegNum} {v w : Word} {f g : Flags}
    (h : exec i s = .next (s.finishCC rd v f)) (hv : v = w) (hf : f = g) : PutsCC i s rd w g :=
  ⟨_, h, by simp [hv], by simp [hf], inSequence_of_succ (by simp), finishCC_kept s rd v f⟩

theorem finishTest_kept (s : State) (f : Flags) : Kept s (s.finishTest f) [.cc, .pc] := by
  intro p hp
  cases p <;> simp_all [Part.Same]

/-- `finishTest` writes CC and goes on in sequence, and that is all. -/
theorem tests_of_finishTest {i : Instr} {s : State} {f g : Flags} (h : exec i s = .next (s.finishTest f))
    (hf : f = g) : Tests i s g :=
  ⟨_, h, by simp [hf], inSequence_of_succ (by simp), finishTest_kept s f⟩

/-! ## Flags -/

/-- The flag functions of the model are those of R291. -/
theorem addFlags_eq (x y r : Word) (z : Bool) :
    addFlags x y r z = ⟨r.getLsbD 15, z, addOverflowRule x y r, carryRule x y r⟩ := by
  simp [addFlags, addO, addC, addOverflowRule, carryRule, BitVec.msb_eq_getLsbD_last]

theorem subFlags_eq (x y r : Word) (z : Bool) :
    subFlags x y r z = ⟨r.getLsbD 15, z, subOverflowRule x y r, borrowRule x y r⟩ := by
  simp [subFlags, subO, subC, subOverflowRule, borrowRule, BitVec.msb_eq_getLsbD_last]

theorem carryWord_eq (s : State) : carryWord s.cc = carryIn s := rfl

/-- Bit 15 as a fact about the number. -/
theorem getLsbD_15 (x : Word) : x.getLsbD 15 = decide (32768 ≤ x.toNat) := by
  rw [show x.getLsbD 15 = x.msb from (BitVec.msb_eq_getLsbD_last x).symm, BitVec.msb_eq_decide]

/-! ## An and the sizes -/

theorem addrReg_eq (an : AddrNum) : addrReg an = 1#1 ++ an := by
  revert an; decide

theorem sizeBytes_eq (sz : Size) : sizeBytes sz = bytesOf sz := by cases sz <;> rfl

theorem addr_eq (s : State) (an : AddrNum) : s.addr an = s.reg (1#1 ++ an) := by rw [State.addr, addrReg_eq]

/-! ## Reading memory -/

/-- Two bytes put together, the high one first, as a number. -/
theorem twoBytes_toNat (hi lo : Byte) :
    (zext hi <<< 8 ||| zext lo).toNat = lo.toNat + 256 * hi.toNat := by
  have h1 := hi.isLt
  have h2 := lo.isLt
  rw [BitVec.toNat_or, BitVec.toNat_shiftLeft, zext, zext, BitVec.toNat_setWidth, BitVec.toNat_setWidth,
    Nat.mod_eq_of_lt (by omega : hi.toNat < 2 ^ 16), Nat.mod_eq_of_lt (by omega : lo.toNat < 2 ^ 16),
    Nat.mod_eq_of_lt (by rw [Nat.shiftLeft_eq]; omega), ← Nat.shiftLeft_add_eq_or_of_lt h2, Nat.shiftLeft_eq]
  omega

theorem dataAt_reads (s : State) (sz : Size) (a : Word) : Reads s sz a (s.dataAt sz a) := by
  cases sz
  · simp [Reads, State.dataAt, zext]
    omega
  · exact twoBytes_toNat _ _

/-! ## The populated regions -/

/-- Why an access is barred, in the terms of Safety: a byte in no region, a byte of a device, or not at all. -/
theorem barrier_cases (m : Config.Regions) (sz : Size) (a : Word) :
    (TouchesNothing m sz a ∧ Memory.barrier m sz a = some (.unpopulatedData a)) ∨
    (¬ TouchesNothing m sz a ∧ TouchesDevice m sz a ∧ Memory.barrier m sz a = some (.deviceAccess a)) ∨
    (InMemory m sz a ∧ Memory.barrier m sz a = none) := by
  have h : ∀ k : Option Config.RegionKind, k = none ∨ k = some .device ∨ k = some .memory := by
    rintro (_ | _ | _) <;> simp
  unfold Memory.barrier
  cases sz
  · rcases h (Memory.kindAt m a) with e | e | e <;>
      simp [TouchesNothing, TouchesDevice, InMemory, accessBytes, Memory.bytesAt, e]
  · rcases h (Memory.kindAt m (a &&& 0xFFFE#16)) with e | e | e <;>
      rcases h (Memory.kindAt m ((a &&& 0xFFFE#16) + 1#16)) with e' | e' | e' <;>
      simp [TouchesNothing, TouchesDevice, InMemory, accessBytes, shortBytes, Memory.bytesAt, aligned, e, e']

theorem barrier_of_inMemory {m : Config.Regions} {sz : Size} {a : Word} (h : InMemory m sz a) :
    Memory.barrier m sz a = none := by
  rcases barrier_cases m sz a with ⟨⟨b, hb, e⟩, _⟩ | ⟨_, ⟨b, hb, e⟩, _⟩ | ⟨_, h'⟩
  · simp [h b hb] at e
  · simp [h b hb] at e
  · exact h'

theorem barrier_of_barredBy {m : Config.Regions} {sz : Size} {a : Word} {q : Refusal} (h : BarredBy m sz a q) :
    Memory.barrier m sz a = some q := by
  rcases barrier_cases m sz a with ⟨h1, e⟩ | ⟨h1, h2, e⟩ | ⟨h1, e⟩
  · rcases h with ⟨_, rfl⟩ | ⟨h3, _⟩
    · exact e
    · exact absurd h1 h3
  · rcases h with ⟨h3, _⟩ | ⟨_, _, rfl⟩
    · exact absurd h3 h1
    · exact e
  · rcases h with ⟨⟨b, hb, e'⟩, _⟩ | ⟨_, ⟨b, hb, e'⟩, _⟩ <;> simp [h1 b hb] at e'

/-- Accesses that all go to memory are not barred. -/
theorem dataAccess_of_inMemory {m : Config.Regions} {sz : Size} {edas : List Word} {r : Result}
    (h : ∀ a ∈ edas, InMemory m sz a) : Memory.dataAccess m sz edas r = r := by
  rw [Memory.dataAccess, List.findSome?_eq_none_iff.mpr fun a ha => barrier_of_inMemory (h a ha)]

/-- Accesses in turn are refused at the first one that is barred. -/
theorem dataAccess_of_barredBy {m : Config.Regions} {sz : Size} {r : Result} {q : Refusal} :
    ∀ {edas : List Word} {k : Nat} {a : Word}, edas[k]? = some a → BarredBy m sz a q →
      (∀ (j : Nat) (b : Word), j < k → edas[j]? = some b → InMemory m sz b) →
      Memory.dataAccess m sz edas r = .refused q
  | [], k, a, h, _, _ => by simp at h
  | e :: edas, 0, a, h, hq, _ => by
    obtain rfl : e = a := by simpa using h
    simp [Memory.dataAccess, barrier_of_barredBy hq]
  | e :: edas, k + 1, a, h, hq, hb => by
    have ih := dataAccess_of_barredBy (r := r) (edas := edas) (k := k) (by simpa using h) hq
      fun j b hj hj' => hb (j + 1) b (by omega) (by simpa using hj')
    simpa [Memory.dataAccess, barrier_of_inMemory (hb 0 e (by omega) rfl)] using ih

/-- Every address is memory under the default maps. -/
theorem kindAt_default (a : Word) :
    Memory.kindAt Config.dmemRegions a = some .memory ∧ Memory.kindAt Config.imemRegions a = some .memory := by
  have := a.isLt
  constructor <;> simp [Memory.kindAt, Config.dmemRegions, Config.imemRegions] <;> omega

/-- Under the default map no access is barred. -/
@[simp] theorem dataAccess_default (sz : Size) (edas : List Word) (r : Result) :
    Memory.dataAccess Config.dmemRegions sz edas r = r :=
  dataAccess_of_inMemory fun _ _ b _ => (kindAt_default b).1

@[simp] theorem instrAccess_default (a : Word) (r : Result) : Memory.instrAccess Config.imemRegions a r = r :=
  if_pos (kindAt_default a).2

/-! ## Loads -/

theorem loadTo_default (s : State) (sz : Size) (eda : Word) (rd : RegNum) :
    s.loadTo Config.dmemRegions sz eda rd = .next ((s.noteRead sz eda).setReg rd (s.dataAt sz eda)).advance := by
  simp [State.loadTo]

/-- A load without an update. -/
theorem loadsFrom_of_loadTo {i : Instr} {s : State} {sz : Size} {eda a : Word} {rd : RegNum}
    (h : exec i s = s.loadTo Config.dmemRegions sz eda rd) (ha : eda = a) : LoadsFrom i s sz a rd := by
  subst ha
  refine ⟨_, h.trans (loadTo_default ..), ?_, by simp, inSequence_of_succ (by simp), ?_⟩
  · simpa using dataAt_reads s sz eda
  · intro p hp
    cases p <;> simp_all [Part.Same, setReg_reg]

/-- A load with an update of An: refused where Rd is An, else the load and the update. -/
theorem loadUpdate_cases (s : State) (sz : Size) (eda : Word) (an : AddrNum) (newA : Word) (rd : RegNum) :
    (rd = 1#1 ++ an ∧ s.loadUpdate Config.dmemRegions sz eda an newA rd = .refused .addressRegisterOverlap) ∨
    (rd ≠ 1#1 ++ an ∧ ∃ t, s.loadUpdate Config.dmemRegions sz eda an newA rd = .next t ∧ t.reg rd = s.dataAt sz eda ∧
      t.reg (1#1 ++ an) = newA ∧ t.outputs = .read sz eda (s.dataAt sz eda) :: s.outputs ∧ t.pc = s.pc + 1#16 ∧
      t.dmem = s.dmem ∧ Kept s t [.reg rd, .reg (1#1 ++ an), .pc, .outputs]) := by
  unfold State.loadUpdate
  rw [addrReg_eq, dataAccess_default]
  by_cases h : rd = 1#1 ++ an
  · exact .inl ⟨h, if_pos h⟩
  · refine .inr ⟨h, _, if_neg h, ?_, ?_, ?_, ?_, ?_, ?_⟩
    · simp [setReg_reg, h]
    · simp
    · simp
    · simp
    · simp
    · intro p hp
      cases p <;> simp_all [Part.Same, setReg_reg]

theorem loadsUpdating_of_loadUpdate {i : Instr} {s : State} {sz : Size} {eda a newA b : Word} {an : AddrNum}
    {rd : RegNum} (h : exec i s = s.loadUpdate Config.dmemRegions sz eda an newA rd) (hr : rd ≠ 1#1 ++ an) (ha : eda = a)
    (hb : newA = b) : LoadsUpdating i s sz a (1#1 ++ an) b rd := by
  subst ha hb
  rcases loadUpdate_cases s sz eda an newA rd with ⟨e, _⟩ | ⟨_, t, ht, h1, h2, h3, h4, _, h6⟩
  · exact absurd e hr
  · exact ⟨t, h.trans ht, h1 ▸ dataAt_reads s sz eda, h2, h1 ▸ h3, inSequence_of_succ h4, h6⟩

/-! ## Stores -/

theorem memWrite_kept (s : State) (sz : Size) (a v : Word) :
    Kept s (s.memWrite sz a v) (.outputs :: accessBytes sz a) := by
  intro p hp
  cases sz
  · cases p <;> simp_all [Part.Same, accessBytes, memWrite_byte_readByte]
  · cases p <;> simp_all [Part.Same, accessBytes, shortBytes, memWrite_short_readByte, aligned]

theorem truncated_eq (v : Word) : truncated .byte v = v &&& 0x00FF#16 := by
  apply BitVec.eq_of_getLsbD_eq
  intro i h
  simp only [truncated, zext]
  interval_cases i <;> simp

theorem truncated_bits (sz : Size) (v : Word) : truncated sz v = storedBits sz v := by
  cases sz
  · exact truncated_eq v
  · rfl

theorem memWrite_stored (s : State) (sz : Size) (a v : Word) : Stored s (s.memWrite sz a v) sz a v := by
  cases sz
  · exact ⟨by simp [memWrite_byte_readByte], by rw [memWrite_outputs, truncated_eq]⟩
  · refine ⟨?_, ?_, by rw [memWrite_outputs]; rfl⟩
    · have := aligned_ne_succ a
      rw [memWrite_short_readByte, if_neg, if_pos]
      · rfl
      · exact this
    · rw [memWrite_short_readByte, if_pos]
      rfl

/-- What was stored is not disturbed by a change of registers or pc. -/
theorem Stored.of_same {s t u : State} {sz : Size} {a v : Word} (h : Stored s t sz a v)
    (hb : ∀ x, u.readByte x = t.readByte x) (ho : u.outputs = t.outputs) : Stored s u sz a v := by
  cases sz
  · exact ⟨by rw [hb]; exact h.1, by rw [ho]; exact h.2⟩
  · exact ⟨by rw [hb]; exact h.1, by rw [hb]; exact h.2.1, by rw [ho]; exact h.2.2⟩

/-- A store without an update. -/
theorem storesTo_of_storeFrom {i : Instr} {s : State} {sz : Size} {eda a : Word} {rs : RegNum}
    (h : exec i s = s.storeFrom Config.dmemRegions sz eda rs) (ha : eda = a) : StoresTo i s sz a (s.reg rs) := by
  subst ha
  rw [State.storeFrom, dataAccess_default] at h
  refine ⟨_, h, (memWrite_stored s sz eda _).of_same (by simp) (by simp), inSequence_of_succ (by simp), ?_⟩
  intro p hp
  have := memWrite_kept s sz eda (s.reg rs) p (by simp_all)
  cases p <;> simp_all [Part.Same]

/-- A store with an update of An. -/
theorem storesUpdating_of_storeUpdate {i : Instr} {s : State} {sz : Size} {eda a newA b : Word} {an : AddrNum}
    {rs : RegNum} (h : exec i s = s.storeUpdate Config.dmemRegions sz eda an newA rs) (ha : eda = a) (hb : newA = b) :
    StoresUpdating i s sz a (1#1 ++ an) b (s.reg rs) := by
  subst ha hb
  rw [State.storeUpdate, dataAccess_default] at h
  refine ⟨_, h, (memWrite_stored s sz eda _).of_same (by simp) (by simp), by simp [addrReg_eq],
    inSequence_of_succ (by simp), ?_⟩
  intro p hp
  have := memWrite_kept s sz eda (s.reg rs) p (by simp_all)
  cases p <;> simp_all [Part.Same, setReg_reg, addrReg_eq]

/-! ## Flow -/

theorem branch_kept (s : State) (b : Bool) (io : BitVec 10) : Kept s (s.branch b io) [.pc] := by
  intro p hp
  cases b <;> cases p <;> simp_all [Part.Same, State.branch]

/-- A conditional branch whose Bool condition is the proposition `c`. -/
theorem branches_of_branch {i : Instr} {s : State} {b : Bool} {c : Prop} {io : BitVec 10}
    (h : exec i s = .next (s.branch b io)) (hc : b = true ↔ c) : Branches i s c io := by
  refine ⟨_, h, ?_, ?_, branch_kept s b io⟩
  · intro hp
    simp [State.branch, hc.mpr hp, sext]
  · intro hn
    have : b = false := by
      cases b
      · rfl
      · exact absurd (hc.mp rfl) hn
    exact inSequence_of_succ (by simp [State.branch, this])

/-! ## Special registers -/

/-- The numbers that name a special register (R46). -/
theorem sregOf_cases (n : SRegNum) :
    (n ∈ [0#4, 1#4, 2#4, 4#4, 12#4, 13#4, 14#4, 15#4] ∧ ∃ r, sregOf n = some r) ∨
    (n ∉ [0#4, 1#4, 2#4, 4#4, 12#4, 13#4, 14#4, 15#4] ∧ sregOf n = none) := by
  have h : (n ∈ [0#4, 1#4, 2#4, 4#4, 12#4, 13#4, 14#4, 15#4] ∧ (sregOf n).isSome = true) ∨
      (n ∉ [0#4, 1#4, 2#4, 4#4, 12#4, 13#4, 14#4, 15#4] ∧ sregOf n = none) := by
    revert n; decide
  simpa only [Option.isSome_iff_exists] using h

/-- `mfsr`: the value of the register the number names, or the refusal. -/
theorem moveFromSR_cases (s : State) (n : SRegNum) (rd : RegNum) :
    (∃ r, sregOf n = some r ∧ s.moveFromSR n rd = .next (s.finish rd (s.readSR r))) ∨
    (sregOf n = none ∧ s.moveFromSR n rd = .refused (.reservedSpecialRegister n)) := by
  unfold State.moveFromSR
  cases h : sregOf n
  · exact .inr ⟨rfl, rfl⟩
  · exact .inl ⟨_, rfl, rfl⟩

/-- `mtsr`: the write of the register the number names, or the refusal. -/
theorem moveToSR_cases (s : State) (v : Word) (n : SRegNum) :
    (∃ r, sregOf n = some r ∧ s.moveToSR v n = .next (s.writeSR r v).advance) ∨
    (sregOf n = none ∧ s.moveToSR v n = .refused (.reservedSpecialRegister n)) := by
  unfold State.moveToSR
  cases h : sregOf n
  · exact .inr ⟨rfl, rfl⟩
  · exact .inl ⟨_, rfl, rfl⟩

/-! ## Register selections -/

/-- An RGS instruction: the two refusals, or, where no access is barred, the accesses, the update of An and the
advance. -/
theorem transfer_cases (s : State) (m : Config.Regions) (sz : Size) (an : AddrNum) (l : List SelReg)
    (edas : List Word) (access : State → State) (newA : Word) :
    (l = [] ∧ s.transfer m sz an l edas access newA = .refused .emptySelection) ∨
    (l ≠ [] ∧ SelReg.gpr (1#1 ++ an) ∈ l ∧ s.transfer m sz an l edas access newA = .refused .addressRegisterOverlap) ∨
    (l ≠ [] ∧ SelReg.gpr (1#1 ++ an) ∉ l ∧ s.transfer m sz an l edas access newA =
      Memory.dataAccess m sz edas (.next (((access s).setReg (1#1 ++ an) newA).advance))) := by
  unfold State.transfer selHits
  rw [addrReg_eq]
  cases l with
  | nil => exact .inl ⟨rfl, rfl⟩
  | cons r l =>
    by_cases h : SelReg.gpr (1#1 ++ an) ∈ r :: l
    · exact .inr (.inl ⟨by simp, h, by simp [h]⟩)
    · refine .inr (.inr ⟨by simp, h, ?_⟩)
      rw [if_neg (by simp), if_neg]
      simpa using h

/-! ## Interrupts and reset -/

/-- Taking an interrupt: everything it does (R407). -/
theorem takeInterrupt_spec (s : State) (k : BitVec 4) :
    (s.takeInterrupt k).pc = s.dataAt .short (s.vectorAddress k) ∧ (s.takeInterrupt k).ia = s.pc ∧
    (s.takeInterrupt k).ccs = s.cc ∧ (s.takeInterrupt k).csIr = true ∧
    (s.takeInterrupt k).outputs =
      .read .short (s.vectorAddress k) (s.dataAt .short (s.vectorAddress k)) :: .iack k :: s.outputs ∧
    Kept s (s.takeInterrupt k) [.pc, .ia, .ccs, .csIr, .outputs] := by
  refine ⟨rfl, rfl, rfl, rfl, by simp [State.takeInterrupt], ?_⟩
  intro p hp
  cases p <;> simp_all [Part.Same, State.takeInterrupt, State.readByte, State.reg]

/-- `vector_address(k)` as a pattern of bits: IVTP, k, 0 (R405). -/
theorem vectorAddress_eq (s : State) (k : BitVec 4) : s.vectorAddress k = s.ivtp ++ k ++ 0#1 := by
  apply BitVec.eq_of_toNat_eq
  have h1 := s.ivtp.isLt
  have h2 := k.isLt
  simp only [State.vectorAddress, zext, BitVec.toNat_append, BitVec.toNat_add, BitVec.toNat_mul, BitVec.toNat_shiftLeft,
    BitVec.toNat_setWidth, BitVec.toNat_ofNat, Nat.shiftLeft_eq]
  rw [← Nat.shiftLeft_eq (BitVec.toNat s.ivtp) 4, ← Nat.shiftLeft_add_eq_or_of_lt h2, Nat.shiftLeft_eq]
  simp
  omega

/-- Returning from an interrupt: everything it does (R411). -/
theorem returnFromInterrupt_spec (s : State) :
    s.returnFromInterrupt.pc = s.ia ∧ s.returnFromInterrupt.cc = s.ccs ∧ s.returnFromInterrupt.csIr = false ∧
    Kept s s.returnFromInterrupt [.pc, .cc, .csIr] := by
  refine ⟨rfl, rfl, rfl, ?_⟩
  intro p hp
  cases p <;> simp_all [Part.Same, State.returnFromInterrupt, State.readByte, State.reg]

/-- The debug input: bits [15:0] of the driven word, or the refusal. -/
theorem dbgIn_cases (s : State) (next : Word → State) :
    (∃ v : BitVec 20, s.dbi = some v ∧ s.dbgIn next = .next (next (v.extractLsb' 0 16))) ∨
    (s.dbi = none ∧ s.dbgIn next = .refused .debugInputUndriven) := by
  unfold State.dbgIn
  cases s.dbi
  · exact .inr ⟨rfl, rfl⟩
  · exact .inl ⟨_, rfl, rfl⟩

/-- An instruction that takes the debug input answers a next state only from a driven port. -/
theorem dbgIn_eq_next (s t : State) (next : Word → State) (h : s.dbgIn next = .next t) :
    ∃ v : BitVec 20, s.dbi = some v ∧ t = next (v.extractLsb' 0 16) := by
  obtain ⟨v, hv, e⟩ | ⟨-, e⟩ := dbgIn_cases s next
  · exact ⟨v, hv, by simpa [e] using h.symm⟩
  · simp [e] at h

end Sys2Proof.Machine
end

