-- ==== Sys2Proof/Laws/Events.lean ====
section
/-! SUPPORT. What a step can do (60_exceptions.md R430): one lemma per kind of step. -/

namespace Sys2Proof.Machine

/-- With nothing offered by the host, the step is the core's own. -/
theorem step_of_nil {s : State} (h : s.inputs = []) : step s = s.stepCore := by
  simp only [step, State.stepMachine, h]

/-- With an event offered, the step takes it. -/
theorem step_of_cons {s : State} {e : HostEvent} {es : List HostEvent} (h : s.inputs = e :: es) :
    step s = ({ s with inputs := es } : State).handle e := by
  simp only [step, State.stepMachine, h]

/-- The core's own step: nothing when stopped, else the execution of the instruction at pc. -/
theorem stepCore_next {s t : State} (h : s.stepCore = .next t) :
    (s.run = .stopped ∧ t = s) ∨
    (s.run = .running ∧ ∃ (w : Opcode) (i : Instr), Memory.find s.pc.toNat s.imem = some w ∧ decode w = .ok i ∧
      exec i s = .next t) := by
  unfold State.stepCore at h
  split at h
  · rename_i hr
    unfold State.stepInstr at h
    rw [instrAccess_default] at h
    split at h
    · cases h
    · rename_i w hw
      split at h
      · cases h
      · rename_i i hi
        exact .inr ⟨hr, w, i, hw, hi, h⟩
  · rename_i hr
    exact .inl ⟨hr, by cases h; rfl⟩

/-- What may not be injected: the twenty instructions that set pc, and `stop` (R429). -/
theorem injectable_iff (i : Instr) : injectable i = true ↔ ¬ SetsPc i ∧ i ≠ .stop := by
  cases i <;> simp [injectable, SetsPc]

/-- An injection: the execution of the word, then the held pc, but for `rspc`. -/
theorem inject_next {s t : State} {w : Opcode} {data : Option (BitVec 20)} (h : s.inject w data = .next t) :
    ∃ (i : Instr) (u : State), decode w = .ok i ∧ injectable i = true ∧ exec i { s with dbi := data } = .next u ∧
      t = if i = .rspc then u else u.setPc s.pc := by
  unfold State.inject at h
  split at h
  · cases h
  · rename_i i hi
    split at h
    · cases h
    · rename_i hj
      refine ⟨i, ?_⟩
      by_cases hr : i = .rspc
      · subst hr
        exact ⟨t, hi, rfl, h, rfl⟩
      · rw [if_neg (by simp [setsHeldPc, hr])] at h
        cases hu : exec i { s with dbi := data } with
        | next u =>
          rw [hu] at h
          cases h
          exact ⟨u, hi, by simpa using hj, rfl, by rw [if_neg hr]⟩
        | fault r => rw [hu] at h; cases h
        | refused r => rw [hu] at h; cases h

/-- An event that is not enabled gives no next state; the others give what R430 says. -/
theorem handle_next {s t : State} {e : HostEvent} (h : s.handle e = .next t) :
    match e with
    | .reset irn strq => t = s.applyReset irn strq
    | .step => s.stepCore = .next t
    | .interrupt k => (s.acknowledges = true ∧ t = s.takeInterrupt k) ∨ (s.acknowledges = false ∧ t = s)
    | .stopRequest => t = { s with run := .stopped }
    | .inject w data => s.run = .stopped ∧ s.inject w data = .next t
    | .resume => s.run = .stopped ∧ t = { s with run := .running }
    | .loadInstr a w => s.run = .stopped ∧ t = s.putInstr a w
    | .loadData a b => s.run = .stopped ∧ t = s.putByte a b
    | .driveDbi v => t = { s with dbi := v } := by
  cases e <;> simp only [State.handle] at h ⊢
  case step => exact h
  case interrupt k =>
    cases ha : s.acknowledges <;> rw [ha] at h <;> simp at h <;> cases h <;> simp
  case reset => cases h; rfl
  case stopRequest => cases h; rfl
  case driveDbi => cases h; rfl
  all_goals
    split at h
    · rename_i hr
      first
        | exact ⟨hr, h⟩
        | (rw [instrAccess_default] at h; cases h; exact ⟨hr, rfl⟩)
        | (rw [dataAccess_default] at h; cases h; exact ⟨hr, rfl⟩)
        | (cases h; exact ⟨hr, rfl⟩)
    · cases h

end Sys2Proof.Machine
end

