-- ==== Sys2Proof/Laws/PerInstr.lean ====
section
/-! SUPPORT. A law of every instruction as syntax, one lemma per constructor: the word the encoder gives an instruction
is covered by a row of the opcode table, and that row reads the instruction back from it. -/

namespace Sys2Proof.Laws.EncodingMatchesTable

/-- The word of `i`, where it has one, is covered by a row of the table that reads `i` from it (R120 to R142). -/
def Statement (i : Instr) : Prop :=
  ∀ (p : Option Config.MlcuFn3) (w : Opcode), encodeWith p i = some w → ∃ r ∈ rows p, r.covers w = true ∧ r.build w = i

/-- The statement from the number of the row, the word and its fixed bits. -/
theorem of_row {i : Instr} (k : Nat) {r : Row} {w : Opcode} (hr : codedRows[k]? = some r)
    (he : ∀ p, encodeWith p i = some w) (hm : w &&& r.mask = r.bits) (hb : r.build w = i) : Statement i := by
  intro p v hv
  obtain rfl : w = v := Option.some.inj ((he p).symm.trans hv)
  exact ⟨r, List.mem_append_left _ (List.mem_of_getElem? hr), by simpa [Row.covers] using hm, hb⟩

theorem subfReg (rs0 : RegNum) (rs1 : RegNum) (rd : RegNum) : Statement (.subfReg rs0 rs1 rd) :=
  of_row 0 rfl (fun _ => rfl) ((encR3_mask_F000F ..).trans (by decide)) (by simp [row])

theorem subfImm (c8 : BitVec 8) (rb : RegNum) : Statement (.subfImm c8 rb) :=
  of_row 1 rfl (fun _ => rfl) ((encI8_mask_8070F ..).trans (by decide)) (by simp [row])

theorem addtReg (rs0 : RegNum) (rs1 : RegNum) (rd : RegNum) : Statement (.addtReg rs0 rs1 rd) :=
  of_row 2 rfl (fun _ => rfl) ((encR3_mask_F000F ..).trans (by decide)) (by simp [row])

theorem addtImm (c8 : BitVec 8) (rb : RegNum) : Statement (.addtImm c8 rb) :=
  of_row 3 rfl (fun _ => rfl) ((encI8_mask_8070F ..).trans (by decide)) (by simp [row])

theorem subc (rs0 : RegNum) (rs1 : RegNum) (rd : RegNum) : Statement (.subc rs0 rs1 rd) :=
  of_row 4 rfl (fun _ => rfl) ((encR3_mask_F000F ..).trans (by decide)) (by simp [row])

theorem addc (rs0 : RegNum) (rs1 : RegNum) (rd : RegNum) : Statement (.addc rs0 rs1 rd) :=
  of_row 5 rfl (fun _ => rfl) ((encR3_mask_F000F ..).trans (by decide)) (by simp [row])

theorem adcf (rs : RegNum) (rd : RegNum) : Statement (.adcf rs rd) :=
  of_row 6 rfl (fun _ => rfl) ((encR2_mask_FF00F ..).trans (by decide)) (by simp [row])

theorem sbcf (rs : RegNum) (rd : RegNum) : Statement (.sbcf rs rd) :=
  of_row 7 rfl (fun _ => rfl) ((encR2_mask_FF00F ..).trans (by decide)) (by simp [row])

theorem compReg (rs0 : RegNum) (rs1 : RegNum) : Statement (.compReg rs0 rs1) :=
  of_row 8 rfl (fun _ => rfl) ((encR2_mask_FF00F ..).trans (by decide)) (by simp [row])

theorem compImm (c10 : BitVec 10) (rs1 : RegNum) : Statement (.compImm c10 rs1) :=
  of_row 9 rfl (fun _ => rfl) ((encI10_mask_8010F ..).trans (by decide)) (by simp [row])

theorem cmpc (rs0 : RegNum) (rs1 : RegNum) : Statement (.cmpc rs0 rs1) :=
  of_row 10 rfl (fun _ => rfl) ((encR2_mask_FF00F ..).trans (by decide)) (by simp [row])

theorem cpcf (rs : RegNum) : Statement (.cpcf rs) :=
  of_row 11 rfl (fun _ => rfl) ((encR2_mask_FF0FF ..).trans (by decide)) (by simp [row])

theorem addh (hi : BitVec 8) (rb : RegNum) : Statement (.addh hi rb) :=
  of_row 12 rfl (fun _ => rfl) ((encI8_mask_8070F ..).trans (by decide)) (by simp [row])

theorem negt (rs : RegNum) (rd : RegNum) : Statement (.negt rs rd) :=
  of_row 13 rfl (fun _ => rfl) ((encR2_mask_FF00F ..).trans (by decide)) (by simp [row])

theorem absl (rs : RegNum) (rd : RegNum) : Statement (.absl rs rd) :=
  of_row 14 rfl (fun _ => rfl) ((encR2_mask_FF00F ..).trans (by decide)) (by simp [row])

theorem clzr (rs : RegNum) (rd : RegNum) : Statement (.clzr rs rd) :=
  of_row 15 rfl (fun _ => rfl) ((encR2_mask_FF00F ..).trans (by decide)) (by simp [row])

theorem sxbt (rs : RegNum) (rd : RegNum) : Statement (.sxbt rs rd) :=
  of_row 16 rfl (fun _ => rfl) ((encR2_mask_FF00F ..).trans (by decide)) (by simp [row])

theorem sxsh (rs : RegNum) (rd : RegNum) : Statement (.sxsh rs rd) :=
  of_row 17 rfl (fun _ => rfl) ((encR2_mask_FF00F ..).trans (by decide)) (by simp [row])

theorem andbReg (rs0 : RegNum) (rs1 : RegNum) (rd : RegNum) : Statement (.andbReg rs0 rs1 rd) :=
  of_row 18 rfl (fun _ => rfl) ((encR3_mask_F000F ..).trans (by decide)) (by simp [row])

theorem andbImm (c8 : BitVec 8) (rb : RegNum) : Statement (.andbImm c8 rb) :=
  of_row 19 rfl (fun _ => rfl) ((encI8_mask_8070F ..).trans (by decide)) (by simp [row])

theorem iorbReg (rs0 : RegNum) (rs1 : RegNum) (rd : RegNum) : Statement (.iorbReg rs0 rs1 rd) :=
  of_row 20 rfl (fun _ => rfl) ((encR3_mask_F000F ..).trans (by decide)) (by simp [row])

theorem iorbImm (c8 : BitVec 8) (rb : RegNum) : Statement (.iorbImm c8 rb) :=
  of_row 21 rfl (fun _ => rfl) ((encI8_mask_8070F ..).trans (by decide)) (by simp [row])

theorem xorbReg (rs0 : RegNum) (rs1 : RegNum) (rd : RegNum) : Statement (.xorbReg rs0 rs1 rd) :=
  of_row 22 rfl (fun _ => rfl) ((encR3_mask_F000F ..).trans (by decide)) (by simp [row])

theorem xorbImm (c8 : BitVec 8) (rb : RegNum) : Statement (.xorbImm c8 rb) :=
  of_row 23 rfl (fun _ => rfl) ((encI8_mask_8070F ..).trans (by decide)) (by simp [row])

theorem invt (rs : RegNum) (rd : RegNum) : Statement (.invt rs rd) :=
  of_row 24 rfl (fun _ => rfl) ((encR2_mask_FF00F ..).trans (by decide)) (by simp [row])

theorem shlzReg (rs0 : RegNum) (rs1 : RegNum) (rd : RegNum) : Statement (.shlzReg rs0 rs1 rd) :=
  of_row 25 rfl (fun _ => rfl) ((encR3_mask_F000F ..).trans (by decide)) (by simp [row])

theorem shlzImm (shc : BitVec 4) (rs1 : RegNum) (rd : RegNum) : Statement (.shlzImm shc rs1 rd) :=
  of_row 26 rfl (fun _ => rfl) ((encR3_mask_F000F ..).trans (by decide)) (by simp [row])

theorem shruReg (rs0 : RegNum) (rs1 : RegNum) (rd : RegNum) : Statement (.shruReg rs0 rs1 rd) :=
  of_row 27 rfl (fun _ => rfl) ((encR3_mask_F000F ..).trans (by decide)) (by simp [row])

theorem shruImm (shc : BitVec 4) (rs1 : RegNum) (rd : RegNum) : Statement (.shruImm shc rs1 rd) :=
  of_row 28 rfl (fun _ => rfl) ((encR3_mask_F000F ..).trans (by decide)) (by simp [row])

theorem shlfReg (rs0 : RegNum) (rs1 : RegNum) (rd : RegNum) : Statement (.shlfReg rs0 rs1 rd) :=
  of_row 29 rfl (fun _ => rfl) ((encR3_mask_F000F ..).trans (by decide)) (by simp [row])

theorem shlfImm (shc : BitVec 4) (rs1 : RegNum) (rd : RegNum) : Statement (.shlfImm shc rs1 rd) :=
  of_row 30 rfl (fun _ => rfl) ((encR3_mask_F000F ..).trans (by decide)) (by simp [row])

theorem shrsReg (rs0 : RegNum) (rs1 : RegNum) (rd : RegNum) : Statement (.shrsReg rs0 rs1 rd) :=
  of_row 31 rfl (fun _ => rfl) ((encR3_mask_F000F ..).trans (by decide)) (by simp [row])

theorem shrsImm (shc : BitVec 4) (rs1 : RegNum) (rd : RegNum) : Statement (.shrsImm shc rs1 rd) :=
  of_row 32 rfl (fun _ => rfl) ((encR3_mask_F000F ..).trans (by decide)) (by simp [row])

theorem btclReg (rs0 : RegNum) (rs1 : RegNum) (rd : RegNum) : Statement (.btclReg rs0 rs1 rd) :=
  of_row 33 rfl (fun _ => rfl) ((encR3_mask_F000F ..).trans (by decide)) (by simp [row])

theorem btclImm (bti : BitVec 4) (rs1 : RegNum) (rd : RegNum) : Statement (.btclImm bti rs1 rd) :=
  of_row 34 rfl (fun _ => rfl) ((encR3_mask_F000F ..).trans (by decide)) (by simp [row])

theorem btstReg (rs0 : RegNum) (rs1 : RegNum) (rd : RegNum) : Statement (.btstReg rs0 rs1 rd) :=
  of_row 35 rfl (fun _ => rfl) ((encR3_mask_F000F ..).trans (by decide)) (by simp [row])

theorem btstImm (bti : BitVec 4) (rs1 : RegNum) (rd : RegNum) : Statement (.btstImm bti rs1 rd) :=
  of_row 36 rfl (fun _ => rfl) ((encR3_mask_F000F ..).trans (by decide)) (by simp [row])

theorem bttgReg (rs0 : RegNum) (rs1 : RegNum) (rd : RegNum) : Statement (.bttgReg rs0 rs1 rd) :=
  of_row 37 rfl (fun _ => rfl) ((encR3_mask_F000F ..).trans (by decide)) (by simp [row])

theorem bttgImm (bti : BitVec 4) (rs1 : RegNum) (rd : RegNum) : Statement (.bttgImm bti rs1 rd) :=
  of_row 38 rfl (fun _ => rfl) ((encR3_mask_F000F ..).trans (by decide)) (by simp [row])

theorem bttsReg (rs0 : RegNum) (rs1 : RegNum) : Statement (.bttsReg rs0 rs1) :=
  of_row 39 rfl (fun _ => rfl) ((encR3_mask_F00FF ..).trans (by decide)) (by simp [row])

theorem bttsImm (bti : BitVec 4) (rs1 : RegNum) : Statement (.bttsImm bti rs1) :=
  of_row 40 rfl (fun _ => rfl) ((encR3_mask_F00FF ..).trans (by decide)) (by simp [row])

theorem mult (rs0 : RegNum) (rs1 : RegNum) (rd : RegNum) : Statement (.mult rs0 rs1 rd) :=
  of_row 41 rfl (fun _ => rfl) ((encR3_mask_F000F ..).trans (by decide)) (by simp [row])

theorem mlhu (rs0 : RegNum) (rs1 : RegNum) (rd : RegNum) : Statement (.mlhu rs0 rs1 rd) :=
  of_row 42 rfl (fun _ => rfl) ((encR3_mask_F000F ..).trans (by decide)) (by simp [row])

theorem mlhs (rs0 : RegNum) (rs1 : RegNum) (rd : RegNum) : Statement (.mlhs rs0 rs1 rd) :=
  of_row 43 rfl (fun _ => rfl) ((encR3_mask_F000F ..).trans (by decide)) (by simp [row])

theorem mlcu (c8 : BitVec 8) (rb : RegNum) : Statement (.mlcu c8 rb) := by
  intro p w hw
  cases p with
  | none => cases hw
  | some m =>
    obtain rfl : encI8 c8 m.code rb = w := by simpa [encodeWith] using hw
    refine ⟨mlcuRow m, by simp [rows], ?_, by simp [mlcuRow, row]⟩
    simp only [Row.covers, mlcuRow, row, encI8_mask_8070F]
    cases m <;> decide

theorem moveReg (rs : RegNum) (rd : RegNum) : Statement (.moveReg rs rd) :=
  of_row 44 rfl (fun _ => rfl) ((encR2_mask_FF00F ..).trans (by decide)) (by simp [row])

theorem moveImm (c10 : BitVec 10) (rd : RegNum) : Statement (.moveImm c10 rd) :=
  of_row 45 rfl (fun _ => rfl) ((encI10_mask_8010F ..).trans (by decide)) (by simp [row])

theorem mvsr (c10 : BitVec 10) (rd : RegNum) : Statement (.mvsr c10 rd) :=
  of_row 46 rfl (fun _ => rfl) ((encI10_mask_8010F ..).trans (by decide)) (by simp [row])

theorem mfsr (srs : SRegNum) (rd : RegNum) : Statement (.mfsr srs rd) :=
  of_row 47 rfl (fun _ => rfl) ((encR2_mask_FF00F ..).trans (by decide)) (by simp [row])

theorem mtsrReg (rs : RegNum) (srd : SRegNum) : Statement (.mtsrReg rs srd) :=
  of_row 48 rfl (fun _ => rfl) ((encR2_mask_FF00F ..).trans (by decide)) (by simp [row])

theorem mtsrImm (c10 : BitVec 10) (srd : SRegNum) : Statement (.mtsrImm c10 srd) :=
  of_row 49 rfl (fun _ => rfl) ((encI10_mask_8010F ..).trans (by decide)) (by simp [row])

theorem mfdp (rd : RegNum) : Statement (.mfdp rd) :=
  of_row 50 rfl (fun _ => rfl) ((encR2_mask_FFF0F ..).trans (by decide)) (by simp [row])

theorem mtdp (rs : RegNum) : Statement (.mtdp rs) :=
  of_row 51 rfl (fun _ => rfl) ((encR2_mask_FF0FF ..).trans (by decide)) (by simp [row])

theorem ldbtDirect (ea : BitVec 11) (rd : RegNum) : Statement (.ldbtDirect ea rd) :=
  of_row 52 rfl (fun _ => rfl) ((encMD_mask_8000F ..).trans (by decide)) (by simp [row])

theorem ldbtOffset (ofs : BitVec 8) (an : AddrNum) (rd : RegNum) : Statement (.ldbtOffset ofs an rd) :=
  of_row 53 rfl (fun _ => rfl) ((encMO_mask_8000F ..).trans (by decide)) (by simp [row])

theorem ldbtIndex (rx : RegNum) (an : AddrNum) (rd : RegNum) : Statement (.ldbtIndex rx an rd) :=
  of_row 54 rfl (fun _ => rfl) ((encMA_mask_F080F ..).trans (by decide)) (by simp [row])

theorem ldbtPostInc (an : AddrNum) (rd : RegNum) : Statement (.ldbtPostInc an rd) :=
  of_row 55 rfl (fun _ => rfl) ((encMA_mask_FF80F ..).trans (by decide)) (by simp [row])

theorem ldbtPreDec (an : AddrNum) (rd : RegNum) : Statement (.ldbtPreDec an rd) :=
  of_row 56 rfl (fun _ => rfl) ((encMA_mask_FF80F ..).trans (by decide)) (by simp [row])

theorem ldbtPostUpd (an : AddrNum) (rd : RegNum) : Statement (.ldbtPostUpd an rd) :=
  of_row 57 rfl (fun _ => rfl) ((encMA_mask_FF80F ..).trans (by decide)) (by simp [row])

theorem ldbtPostIncSel (an : AddrNum) (rgs : BitVec 10) : Statement (.ldbtPostIncSel an rgs) :=
  of_row 58 rfl (fun _ => rfl) ((encMG_mask_C080F ..).trans (by decide)) (by simp [row])

theorem ldbtPreDecSel (an : AddrNum) (rgs : BitVec 10) : Statement (.ldbtPreDecSel an rgs) :=
  of_row 59 rfl (fun _ => rfl) ((encMG_mask_C080F ..).trans (by decide)) (by simp [row])

theorem ldshDirect (ea : BitVec 11) (rd : RegNum) : Statement (.ldshDirect ea rd) :=
  of_row 60 rfl (fun _ => rfl) ((encMD_mask_8000F ..).trans (by decide)) (by simp [row])

theorem ldshOffset (ofs : BitVec 8) (an : AddrNum) (rd : RegNum) : Statement (.ldshOffset ofs an rd) :=
  of_row 61 rfl (fun _ => rfl) ((encMO_mask_8000F ..).trans (by decide)) (by simp [row])

theorem ldshIndex (rx : RegNum) (an : AddrNum) (rd : RegNum) : Statement (.ldshIndex rx an rd) :=
  of_row 62 rfl (fun _ => rfl) ((encMA_mask_F080F ..).trans (by decide)) (by simp [row])

theorem ldshPostInc (an : AddrNum) (rd : RegNum) : Statement (.ldshPostInc an rd) :=
  of_row 63 rfl (fun _ => rfl) ((encMA_mask_FF80F ..).trans (by decide)) (by simp [row])

theorem ldshPreDec (an : AddrNum) (rd : RegNum) : Statement (.ldshPreDec an rd) :=
  of_row 64 rfl (fun _ => rfl) ((encMA_mask_FF80F ..).trans (by decide)) (by simp [row])

theorem ldshPostUpd (an : AddrNum) (rd : RegNum) : Statement (.ldshPostUpd an rd) :=
  of_row 65 rfl (fun _ => rfl) ((encMA_mask_FF80F ..).trans (by decide)) (by simp [row])

theorem ldshPostIncSel (an : AddrNum) (rgs : BitVec 10) : Statement (.ldshPostIncSel an rgs) :=
  of_row 66 rfl (fun _ => rfl) ((encMG_mask_C080F ..).trans (by decide)) (by simp [row])

theorem ldshPreDecSel (an : AddrNum) (rgs : BitVec 10) : Statement (.ldshPreDecSel an rgs) :=
  of_row 67 rfl (fun _ => rfl) ((encMG_mask_C080F ..).trans (by decide)) (by simp [row])

theorem stbtDirect (rs : RegNum) (ea : BitVec 11) : Statement (.stbtDirect rs ea) :=
  of_row 68 rfl (fun _ => rfl) ((encMD_mask_8000F ..).trans (by decide)) (by simp [row])

theorem stbtOffset (rs : RegNum) (ofs : BitVec 8) (an : AddrNum) : Statement (.stbtOffset rs ofs an) :=
  of_row 69 rfl (fun _ => rfl) ((encMO_mask_8000F ..).trans (by decide)) (by simp [row])

theorem stbtIndex (rs : RegNum) (rx : RegNum) (an : AddrNum) : Statement (.stbtIndex rs rx an) :=
  of_row 70 rfl (fun _ => rfl) ((encMA_mask_F080F ..).trans (by decide)) (by simp [row])

theorem stbtPostInc (rs : RegNum) (an : AddrNum) : Statement (.stbtPostInc rs an) :=
  of_row 71 rfl (fun _ => rfl) ((encMA_mask_FF80F ..).trans (by decide)) (by simp [row])

theorem stbtPreDec (rs : RegNum) (an : AddrNum) : Statement (.stbtPreDec rs an) :=
  of_row 72 rfl (fun _ => rfl) ((encMA_mask_FF80F ..).trans (by decide)) (by simp [row])

theorem stbtPostUpd (rs : RegNum) (an : AddrNum) : Statement (.stbtPostUpd rs an) :=
  of_row 73 rfl (fun _ => rfl) ((encMA_mask_FF80F ..).trans (by decide)) (by simp [row])

theorem stbtPostIncSel (rgs : BitVec 10) (an : AddrNum) : Statement (.stbtPostIncSel rgs an) :=
  of_row 74 rfl (fun _ => rfl) ((encMG_mask_C080F ..).trans (by decide)) (by simp [row])

theorem stbtPreDecSel (rgs : BitVec 10) (an : AddrNum) : Statement (.stbtPreDecSel rgs an) :=
  of_row 75 rfl (fun _ => rfl) ((encMG_mask_C080F ..).trans (by decide)) (by simp [row])

theorem stshDirect (rs : RegNum) (ea : BitVec 11) : Statement (.stshDirect rs ea) :=
  of_row 76 rfl (fun _ => rfl) ((encMD_mask_8000F ..).trans (by decide)) (by simp [row])

theorem stshOffset (rs : RegNum) (ofs : BitVec 8) (an : AddrNum) : Statement (.stshOffset rs ofs an) :=
  of_row 77 rfl (fun _ => rfl) ((encMO_mask_8000F ..).trans (by decide)) (by simp [row])

theorem stshIndex (rs : RegNum) (rx : RegNum) (an : AddrNum) : Statement (.stshIndex rs rx an) :=
  of_row 78 rfl (fun _ => rfl) ((encMA_mask_F080F ..).trans (by decide)) (by simp [row])

theorem stshPostInc (rs : RegNum) (an : AddrNum) : Statement (.stshPostInc rs an) :=
  of_row 79 rfl (fun _ => rfl) ((encMA_mask_FF80F ..).trans (by decide)) (by simp [row])

theorem stshPreDec (rs : RegNum) (an : AddrNum) : Statement (.stshPreDec rs an) :=
  of_row 80 rfl (fun _ => rfl) ((encMA_mask_FF80F ..).trans (by decide)) (by simp [row])

theorem stshPostUpd (rs : RegNum) (an : AddrNum) : Statement (.stshPostUpd rs an) :=
  of_row 81 rfl (fun _ => rfl) ((encMA_mask_FF80F ..).trans (by decide)) (by simp [row])

theorem stshPostIncSel (rgs : BitVec 10) (an : AddrNum) : Statement (.stshPostIncSel rgs an) :=
  of_row 82 rfl (fun _ => rfl) ((encMG_mask_C080F ..).trans (by decide)) (by simp [row])

theorem stshPreDecSel (rgs : BitVec 10) (an : AddrNum) : Statement (.stshPreDecSel rgs an) :=
  of_row 83 rfl (fun _ => rfl) ((encMG_mask_C080F ..).trans (by decide)) (by simp [row])

theorem jump : Statement .jump :=
  of_row 84 rfl (fun _ => rfl) (by decide) (rfl)

theorem jpsrAbs (ia : Word) : Statement (.jpsrAbs ia) :=
  of_row 85 rfl (fun _ => rfl) ((encJ_mask_C0003 ..).trans (by decide)) (by simp [row])

theorem jpsr : Statement .jpsr :=
  of_row 86 rfl (fun _ => rfl) (by decide) (rfl)

theorem rtsr : Statement .rtsr :=
  of_row 87 rfl (fun _ => rfl) (by decide) (rfl)

theorem rtir : Statement .rtir :=
  of_row 88 rfl (fun _ => rfl) (by decide) (rfl)

theorem bral (io : BitVec 14) : Statement (.bral io) :=
  of_row 89 rfl (fun _ => rfl) ((encB14_mask_C000F ..).trans (by decide)) (by simp [row])

theorem brlc (io : BitVec 10) : Statement (.brlc io) :=
  of_row 90 rfl (fun _ => rfl) ((encB10_mask_C00FF ..).trans (by decide)) (by simp [row])

theorem brnc (io : BitVec 10) (sp : Bool) : Statement (.brnc io sp) :=
  of_row 91 rfl (fun _ => rfl) ((encB10_mask_C007F ..).trans (by decide)) (by simp [row])

theorem brcr (io : BitVec 10) (sp : Bool) : Statement (.brcr io sp) :=
  of_row 92 rfl (fun _ => rfl) ((encB10_mask_C007F ..).trans (by decide)) (by simp [row])

theorem brno (io : BitVec 10) (sp : Bool) : Statement (.brno io sp) :=
  of_row 93 rfl (fun _ => rfl) ((encB10_mask_C007F ..).trans (by decide)) (by simp [row])

theorem brof (io : BitVec 10) (sp : Bool) : Statement (.brof io sp) :=
  of_row 94 rfl (fun _ => rfl) ((encB10_mask_C007F ..).trans (by decide)) (by simp [row])

theorem brnz (io : BitVec 10) (sp : Bool) : Statement (.brnz io sp) :=
  of_row 95 rfl (fun _ => rfl) ((encB10_mask_C007F ..).trans (by decide)) (by simp [row])

theorem brzr (io : BitVec 10) (sp : Bool) : Statement (.brzr io sp) :=
  of_row 96 rfl (fun _ => rfl) ((encB10_mask_C007F ..).trans (by decide)) (by simp [row])

theorem brps (io : BitVec 10) (sp : Bool) : Statement (.brps io sp) :=
  of_row 97 rfl (fun _ => rfl) ((encB10_mask_C007F ..).trans (by decide)) (by simp [row])

theorem brng (io : BitVec 10) (sp : Bool) : Statement (.brng io sp) :=
  of_row 98 rfl (fun _ => rfl) ((encB10_mask_C007F ..).trans (by decide)) (by simp [row])

theorem brls (io : BitVec 10) (sp : Bool) : Statement (.brls io sp) :=
  of_row 99 rfl (fun _ => rfl) ((encB10_mask_C007F ..).trans (by decide)) (by simp [row])

theorem brhi (io : BitVec 10) (sp : Bool) : Statement (.brhi io sp) :=
  of_row 100 rfl (fun _ => rfl) ((encB10_mask_C007F ..).trans (by decide)) (by simp [row])

theorem brlo (io : BitVec 10) (sp : Bool) : Statement (.brlo io sp) :=
  of_row 101 rfl (fun _ => rfl) ((encB10_mask_C007F ..).trans (by decide)) (by simp [row])

theorem brge (io : BitVec 10) (sp : Bool) : Statement (.brge io sp) :=
  of_row 102 rfl (fun _ => rfl) ((encB10_mask_C007F ..).trans (by decide)) (by simp [row])

theorem brle (io : BitVec 10) (sp : Bool) : Statement (.brle io sp) :=
  of_row 103 rfl (fun _ => rfl) ((encB10_mask_C007F ..).trans (by decide)) (by simp [row])

theorem brgt (io : BitVec 10) (sp : Bool) : Statement (.brgt io sp) :=
  of_row 104 rfl (fun _ => rfl) ((encB10_mask_C007F ..).trans (by decide)) (by simp [row])

theorem stie : Statement .stie :=
  of_row 105 rfl (fun _ => rfl) (by decide) (rfl)

theorem clie : Statement .clie :=
  of_row 106 rfl (fun _ => rfl) (by decide) (rfl)

theorem scie : Statement .scie :=
  of_row 107 rfl (fun _ => rfl) (by decide) (rfl)

theorem rsie : Statement .rsie :=
  of_row 108 rfl (fun _ => rfl) (by decide) (rfl)

theorem svpc : Statement .svpc :=
  of_row 109 rfl (fun _ => rfl) (by decide) (rfl)

theorem rspc : Statement .rspc :=
  of_row 110 rfl (fun _ => rfl) (by decide) (rfl)

theorem stop : Statement .stop :=
  of_row 111 rfl (fun _ => rfl) (by decide) (rfl)

end Sys2Proof.Laws.EncodingMatchesTable
end

