-- ==== Sys2Proof/Laws/Selections.lean ====
section
/-! SUPPORT. The register selections RGS (40_operands_addressing.md R179 to R182): which registers the flags select, and
what a whole sequence of loads or stores does. -/

namespace Sys2Proof.Machine

/-! ## Which registers are selected -/

theorem pick_of_selects (flags : BitVec 10) (order : List SelReg) (hn : order.Nodup) :
    ∀ (k : Nat) (l : List SelReg), l.Sublist order →
      (∀ (j : Nat) (r : SelReg), order[j]? = some r → (r ∈ l ↔ flags.getLsbD (k + j) = true)) →
      pick flags k order = l := by
  induction order with
  | nil => intro k l hl _; exact (List.sublist_nil.mp hl).symm
  | cons q order ih =>
    intro k l hl hf
    rw [List.nodup_cons] at hn
    have hq := hf 0 q rfl
    have hrest : ∀ (j : Nat) (r : SelReg), order[j]? = some r → r ≠ q ∧ (r ∈ l ↔ flags.getLsbD (k + 1 + j) = true) := by
      intro j r hr
      refine ⟨fun e => hn.1 (e ▸ List.mem_of_getElem? hr), ?_⟩
      rw [show k + 1 + j = k + (j + 1) by omega]
      exact hf (j + 1) r (by simpa using hr)
    cases hl with
    | cons _ hl =>
      have hqf : flags.getLsbD k = false := by
        rw [Bool.eq_false_iff]
        intro h
        exact hn.1 (hl.subset (hq.mpr h))
      rw [pick, hqf, if_neg (by simp)]
      exact ih hn.2 (k + 1) l hl fun j r hr => (hrest j r hr).2
    | cons_cons _ hl =>
      rename_i l
      have hqf : flags.getLsbD k = true := hq.mp (by simp)
      rw [pick, hqf, if_pos rfl, ih hn.2 (k + 1) l hl]
      intro j r hr
      rw [← (hrest j r hr).2, List.mem_cons, or_iff_right (hrest j r hr).1]

theorem upOrder_eq (sz : Size) : upOrder sz = ascending sz := by cases sz <;> rfl

theorem downOrder_eq (sz : Size) : downOrder sz = descending sz := by cases sz <;> rfl

theorem ascending_nodup (sz : Size) : (ascending sz).Nodup := by cases sz <;> decide

/-- The selection of an (An)+ form is the list the flags select. -/
theorem selUp_eq {sz : Size} {rgs : BitVec 10} {l : List SelReg} (h : Selects (ascending sz) rgs l) :
    selUp sz rgs = l := by
  rw [selUp, upOrder_eq]
  exact pick_of_selects rgs _ (ascending_nodup sz) 0 l h.1 (by simpa using h.2)

/-- The selection of a -(An) form is the list the flags select. -/
theorem selDown_eq {sz : Size} {rgs : BitVec 10} {l : List SelReg} (h : Selects (descending sz) rgs l) :
    selDown sz rgs = l := by
  rw [selDown, downOrder_eq]
  exact pick_of_selects rgs _ (List.nodup_reverse.mpr (ascending_nodup sz)) 0 l h.1 
    fun j r hr => by rw [Nat.zero_add]; exact h.2 j r hr

theorem Selects.nodup {sz : Size} {rgs : BitVec 10} {l : List SelReg}
    (h : Selects (ascending sz) rgs l ∨ Selects (descending sz) rgs l) : l.Nodup := by
  rcases h with h | h
  · exact h.1.nodup (ascending_nodup sz)
  · exact h.1.nodup (List.nodup_reverse.mpr (ascending_nodup sz))

theorem Selects.length_le {sz : Size} {rgs : BitVec 10} {l : List SelReg}
    (h : Selects (ascending sz) rgs l ∨ Selects (descending sz) rgs l) : l.length ≤ 10 := by
  have h10 : (ascending sz).length = 10 := by cases sz <;> rfl
  rcases h with h | h
  · exact h10 ▸ h.1.length_le
  · simpa [descending, h10] using h.1.length_le

/-! ## One member of a selection -/

theorem setSel_sel (s : State) (r q : SelReg) (v : Word) : (s.setSel r v).sel q = if q = r then v else s.sel q := by
  cases r <;> cases q <;> simp [State.setSel, State.sel, setReg_reg]
  rfl

theorem setSel_kept (s : State) (r : SelReg) (v : Word) : Kept s (s.setSel r v) [selPart r] := by
  intro p hp
  cases r <;> cases p <;> simp_all [Part.Same, State.setSel, selPart, setReg_reg] <;> rfl

theorem Kept.sel {s t : State} {l : List Part} (h : Kept s t l) {r : SelReg} (hr : selPart r ∉ l) :
    t.sel r = s.sel r := by
  cases r <;> exact h _ hr

/-! ## Sequences of accesses at the addresses `at_ 0`, `at_ 1`, … -/

/-- Loads of the registers of a list from given addresses. -/
def loadsAt (sz : Size) : List SelReg → (Nat → Word) → State → State
  | [], _, s => s
  | r :: rs, at_, s => loadsAt sz rs (fun k => at_ (k + 1)) ((s.noteRead sz (at_ 0)).setSel r (s.dataAt sz (at_ 0)))

/-- Stores of the registers of a list to given addresses. -/
def storesAt (sz : Size) : List SelReg → (Nat → Word) → State → State
  | [], _, s => s
  | r :: rs, at_, s => storesAt sz rs (fun k => at_ (k + 1)) (s.memWrite sz (at_ 0) (s.sel r))

theorem up_succ (sz : Size) (a : Word) (k : Nat) :
    a + sizeBytes sz * BitVec.ofNat 16 (k + 1) = a + sizeBytes sz + sizeBytes sz * BitVec.ofNat 16 k := by
  rw [show BitVec.ofNat 16 (k + 1) = BitVec.ofNat 16 k + 1#16 from BitVec.eq_of_toNat_eq (by simp), BitVec.mul_add,
    BitVec.mul_one]
  ac_rfl

theorem down_succ (sz : Size) (a : Word) (k : Nat) :
    a - sizeBytes sz * BitVec.ofNat 16 (k + 1) - sizeBytes sz =
      a - sizeBytes sz - sizeBytes sz * BitVec.ofNat 16 k - sizeBytes sz := by
  rw [show BitVec.ofNat 16 (k + 1) = BitVec.ofNat 16 k + 1#16 from BitVec.eq_of_toNat_eq (by simp), BitVec.mul_add,
    BitVec.mul_one]
  generalize sizeBytes sz * BitVec.ofNat 16 k = x
  simp only [BitVec.sub_eq_add_neg, BitVec.neg_add]
  ac_rfl

theorem loadUp_eq (sz : Size) (l : List SelReg) :
    ∀ (a : Word) (s : State), loadUp sz l a s = loadsAt sz l (fun k => a + sizeBytes sz * BitVec.ofNat 16 k) s := by
  induction l with
  | nil => intro a s; rfl
  | cons r l ih => intro a s; simp only [loadUp, loadsAt, ih, up_succ]; simp

theorem loadDown_eq (sz : Size) (l : List SelReg) :
    ∀ (a : Word) (s : State),
      loadDown sz l a s = loadsAt sz l (fun k => a - sizeBytes sz * BitVec.ofNat 16 k - sizeBytes sz) s := by
  induction l with
  | nil => intro a s; rfl
  | cons r l ih => intro a s; simp only [loadDown, loadsAt, ih, down_succ]; simp

theorem storeUp_eq (sz : Size) (l : List SelReg) :
    ∀ (a : Word) (s : State), storeUp sz l a s = storesAt sz l (fun k => a + sizeBytes sz * BitVec.ofNat 16 k) s := by
  induction l with
  | nil => intro a s; rfl
  | cons r l ih => intro a s; simp only [storeUp, storesAt, ih, up_succ]; simp

theorem storeDown_eq (sz : Size) (l : List SelReg) :
    ∀ (a : Word) (s : State),
      storeDown sz l a s = storesAt sz l (fun k => a - sizeBytes sz * BitVec.ofNat 16 k - sizeBytes sz) s := by
  induction l with
  | nil => intro a s; rfl
  | cons r l ih => intro a s; simp only [storeDown, storesAt, ih, down_succ]; simp

/-- A sequence of loads changes the registers of the list and the bus output. -/
theorem loadsAt_kept (sz : Size) (l : List SelReg) :
    ∀ (at_ : Nat → Word) (s : State), Kept s (loadsAt sz l at_ s) (.outputs :: l.map selPart) := by
  induction l with
  | nil => intro at_ s; exact Kept.refl s _
  | cons r l ih =>
    intro at_ s
    have h1 : Kept s (s.noteRead sz (at_ 0)) [.outputs] := by
      intro p hp
      cases p <;> simp_all [Part.Same]
    have h2 := Kept.trans (Kept.trans h1 (setSel_kept (s.noteRead sz (at_ 0)) r (s.dataAt sz (at_ 0))))
      (ih (fun k => at_ (k + 1)) _)
    exact h2.mono (by simp; tauto)

/-- A sequence of loads puts the operand at `at_ k` into the k-th register. -/
theorem loadsAt_sel (sz : Size) (l : List SelReg) (hn : l.Nodup) :
    ∀ (at_ : Nat → Word) (s : State) (k : Nat) (r : SelReg), l[k]? = some r →
      (loadsAt sz l at_ s).sel r = s.dataAt sz (at_ k) := by
  induction l with
  | nil => intro at_ s k r h; simp at h
  | cons q l ih =>
    intro at_ s k r h
    rw [List.nodup_cons] at hn
    cases k with
    | zero =>
      obtain rfl : q = r := by simpa using h
      rw [loadsAt, (loadsAt_kept sz l _ _).sel, setSel_sel, if_pos rfl]
      simp only [List.mem_cons, List.mem_map, not_or, not_exists, not_and]
      refine ⟨by cases q <;> simp [selPart], fun r hr e => hn.1 ?_⟩
      have : r = q := by
        cases r <;> cases q <;> simp [selPart] at e
        · rw [e]
        · rfl
      exact this ▸ hr
    | succ k =>
      rw [loadsAt, ih hn.2 _ _ k r (by simpa using h)]
      have : ((s.noteRead sz (at_ 0)).setSel q (s.dataAt sz (at_ 0))).dmem = s.dmem := by
        cases q <;> simp [State.setSel]
      cases sz <;> simp [State.dataAt, State.readByte]

/-- A sequence of loads shows its reads on the bus, one by one. -/
theorem loadsAt_outputs (sz : Size) (l : List SelReg) :
    ∀ (at_ : Nat → Word) (s : State), (loadsAt sz l at_ s).outputs =
      (l.mapIdx fun k _ => Output.read sz (at_ k) (s.dataAt sz (at_ k))).reverse ++ s.outputs := by
  induction l with
  | nil => intro at_ s; rfl
  | cons q l ih =>
    intro at_ s
    have hd : ∀ a, ((s.noteRead sz (at_ 0)).setSel q (s.dataAt sz (at_ 0))).dataAt sz a = s.dataAt sz a := by
      intro a
      have : ((s.noteRead sz (at_ 0)).setSel q (s.dataAt sz (at_ 0))).dmem = s.dmem := by
        cases q <;> simp [State.setSel]
      cases sz <;> simp [State.dataAt, State.readByte]
    have ho : ((s.noteRead sz (at_ 0)).setSel q (s.dataAt sz (at_ 0))).outputs =
        .read sz (at_ 0) (s.dataAt sz (at_ 0)) :: s.outputs := by
      cases q <;> simp [State.setSel]
    rw [loadsAt, ih, ho]
    simp [List.mapIdx_cons, hd]

/-- A sequence of stores changes the bytes stored to and the bus output. -/
theorem storesAt_kept (sz : Size) (l : List SelReg) :
    ∀ (at_ : Nat → Word) (s : State),
      Kept s (storesAt sz l at_ s) (.outputs :: (List.range l.length).flatMap fun k => accessBytes sz (at_ k)) := by
  induction l with
  | nil => intro at_ s; exact Kept.refl s _
  | cons r l ih =>
    intro at_ s
    refine (Kept.trans (memWrite_kept s sz (at_ 0) (s.sel r)) (ih (fun k => at_ (k + 1)) _)).mono ?_
    intro p hp
    simp only [List.mem_append, List.mem_cons, List.mem_flatMap, List.mem_range, List.length_cons] at hp ⊢
    rcases hp with (rfl | hp) | rfl | ⟨k, hk, hp⟩
    · exact .inl rfl
    · exact .inr ⟨0, by omega, hp⟩
    · exact .inl rfl
    · exact .inr ⟨k + 1, by omega, hp⟩

/-- A sequence of stores shows its writes on the bus, one by one. -/
theorem storesAt_outputs (sz : Size) (l : List SelReg) :
    ∀ (at_ : Nat → Word) (s : State), (storesAt sz l at_ s).outputs =
      (l.mapIdx fun k r => Output.write sz (at_ k) (storedBits sz (s.sel r))).reverse ++ s.outputs := by
  induction l with
  | nil => intro at_ s; rfl
  | cons q l ih =>
    intro at_ s
    have hs : ∀ r, (s.memWrite sz (at_ 0) (s.sel q)).sel r = s.sel r := fun r =>
      (memWrite_kept s sz (at_ 0) (s.sel q)).sel (by cases sz <;> cases r <;> simp [accessBytes, shortBytes, selPart])
    rw [storesAt, ih, memWrite_outputs, truncated_bits]
    simp [List.mapIdx_cons, hs]

/-- The bytes of size `sz` at `a` are those of `v`. -/
def Holds (s : State) (sz : Size) (a v : Word) : Prop :=
  match sz with
  | .byte => s.readByte a = v.extractLsb' 0 8
  | .short => s.readByte (a &&& 0xFFFE#16) = v.extractLsb' 0 8 ∧
      s.readByte ((a &&& 0xFFFE#16) + 1#16) = v.extractLsb' 8 8

theorem holds_memWrite (s : State) (sz : Size) (a v : Word) : Holds (s.memWrite sz a v) sz a v := by
  have := memWrite_stored s sz a v
  cases sz
  · exact this.1
  · exact ⟨this.1, this.2.1⟩

theorem Holds.of_kept {s t : State} {sz : Size} {a v : Word} {l : List Part} (h : Holds s sz a v) (hk : Kept s t l)
    (hl : ∀ p ∈ accessBytes sz a, p ∉ l) : Holds t sz a v := by
  cases sz
  · exact Eq.trans (hk.readByte (hl _ (by simp [accessBytes]))) h
  · exact ⟨Eq.trans (hk.readByte (hl _ (by simp [accessBytes, shortBytes]))) h.1,
      Eq.trans (hk.readByte (hl _ (by simp [accessBytes, shortBytes]))) h.2⟩

/-- A sequence of stores at addresses that do not overlap leaves the k-th register at `at_ k`. -/
theorem storesAt_holds (sz : Size) (l : List SelReg) :
    ∀ (at_ : Nat → Word) (s : State),
      (∀ j k : Nat, j < k → k < l.length → ∀ p ∈ accessBytes sz (at_ j), p ∉ accessBytes sz (at_ k)) →
      ∀ (k : Nat) (r : SelReg), l[k]? = some r → Holds (storesAt sz l at_ s) sz (at_ k) (s.sel r) := by
  induction l with
  | nil => intro at_ s _ k r h; simp at h
  | cons q l ih =>
    intro at_ s hd k r h
    cases k with
    | zero =>
      obtain rfl : q = r := by simpa using h
      refine (holds_memWrite s sz (at_ 0) (s.sel q)).of_kept (storesAt_kept sz l (fun k => at_ (k + 1)) _) ?_
      intro p hp
      simp only [List.mem_cons, List.mem_flatMap, List.mem_range, not_or, not_exists, not_and]
      refine ⟨?_, fun k hk => hd 0 (k + 1) (by omega) (by simpa using hk) p hp⟩
      cases sz <;> simp [accessBytes, shortBytes] at hp <;> rcases hp with rfl | rfl <;> simp
    | succ k =>
      have := ih (fun k => at_ (k + 1)) (s.memWrite sz (at_ 0) (s.sel q))
        (fun i j hij hj => hd (i + 1) (j + 1) (by omega) (by simpa using hj)) k r (by simpa using h)
      have e : (s.memWrite sz (at_ 0) (s.sel q)).sel r = s.sel r :=
        (memWrite_kept s sz (at_ 0) (s.sel q)).sel (by cases sz <;> cases r <;> simp [accessBytes, shortBytes, selPart])
      rwa [e] at this

/-- The even address below, as a number. -/
theorem even_toNat (a : Word) : (a &&& 0xFFFE#16).toNat = a.toNat / 2 * 2 := by
  have h : a &&& 0xFFFE#16 = a >>> 1 <<< 1 := by
    apply BitVec.eq_of_getLsbD_eq
    intro i hi
    simp only [BitVec.getLsbD_and, BitVec.getLsbD_shiftLeft, BitVec.getLsbD_ushiftRight]
    interval_cases i <;> simp
  rw [h, BitVec.toNat_shiftLeft, BitVec.toNat_ushiftRight, Nat.shiftLeft_eq, Nat.shiftRight_eq_div_pow]
  have := a.isLt
  omega

/-- Operands at a stride of their size do not overlap, for up to ten of them. -/
theorem access_disjoint (sz : Size) (a b : Word) (i : Nat) (h0 : 0 < i) (h : i < 10)
    (hb : b = a + sizeBytes sz * BitVec.ofNat 16 i) :
    (∀ p ∈ accessBytes sz a, p ∉ accessBytes sz b) ∧ ∀ p ∈ accessBytes sz b, p ∉ accessBytes sz a := by
  have hn := congrArg BitVec.toNat hb
  have ha := a.isLt
  cases sz
  · simp [sizeBytes] at hn
    have : a ≠ b := by
      intro e
      rw [← e] at hn
      omega
    simp [accessBytes, this, Ne.symm this]
  · have e1 := even_toNat a
    have e2 := even_toNat b
    have l1 := (a &&& 0xFFFE#16).isLt
    simp [sizeBytes] at hn
    simp only [accessBytes, shortBytes, List.mem_cons, List.not_mem_nil, or_false, forall_eq_or_imp, forall_eq,
      Part.byte.injEq, not_or]
    generalize a &&& 0xFFFE#16 = x at *
    generalize b &&& 0xFFFE#16 = y at *
    refine ⟨⟨⟨?_, ?_⟩, ?_, ?_⟩, ⟨?_, ?_⟩, ?_, ?_⟩ <;> intro e <;> have := congrArg BitVec.toNat e <;>
      (try simp only [BitVec.toNat_add, BitVec.toNat_ofNat] at this) <;> omega

theorem stride_add (sz : Size) {j k : Nat} (h : j < k) :
    bytesOf sz * BitVec.ofNat 16 k = bytesOf sz * BitVec.ofNat 16 j + bytesOf sz * BitVec.ofNat 16 (k - j) := by
  rw [← BitVec.mul_add]
  congr 1
  apply BitVec.eq_of_toNat_eq
  rw [BitVec.toNat_add, BitVec.toNat_ofNat, BitVec.toNat_ofNat, BitVec.toNat_ofNat, ← Nat.add_mod]
  congr 1
  omega

theorem up_disjoint (sz : Size) (a : Word) {n : Nat} (hn : n ≤ 10) (j k : Nat) (hj : j < k) (hk : k < n) :
    ∀ p ∈ accessBytes sz (a + bytesOf sz * BitVec.ofNat 16 j),
      p ∉ accessBytes sz (a + bytesOf sz * BitVec.ofNat 16 k) := by
  refine (access_disjoint sz _ _ (k - j) (by omega) (by omega) ?_).1
  rw [sizeBytes_eq, stride_add sz hj, BitVec.add_assoc]

theorem down_disjoint (sz : Size) (a : Word) {n : Nat} (hn : n ≤ 10) (j k : Nat) (hj : j < k) (hk : k < n) :
    ∀ p ∈ accessBytes sz (a - bytesOf sz * BitVec.ofNat 16 j - bytesOf sz),
      p ∉ accessBytes sz (a - bytesOf sz * BitVec.ofNat 16 k - bytesOf sz) := by
  refine (access_disjoint sz _ _ (k - j) (by omega) (by omega) ?_).2
  rw [sizeBytes_eq, stride_add sz hj]
  generalize bytesOf sz * BitVec.ofNat 16 j = x
  generalize bytesOf sz * BitVec.ofNat 16 (k - j) = y
  bv_omega

/-! ## The region maps -/

/-- A selection of n accesses is bounded by the region map of data memory. -/
theorem boundedBy_transfer {s : State} {m : Config.Regions} {sz : Size} {an : AddrNum} {l : List SelReg} {n : Nat}
    {at_ : Nat → Word} {access : State → State} {newA : Word} (hl : l ≠ []) (ha : SelReg.gpr (1#1 ++ an) ∉ l) :
    BoundedBy m sz n at_ fun m => s.transfer m sz an l ((List.range n).map at_) access newA := by
  have e : ∀ m, s.transfer m sz an l ((List.range n).map at_) access newA =
      Memory.dataAccess m sz ((List.range n).map at_) (.next (((access s).setReg (1#1 ++ an) newA).advance)) := by
    intro m
    rcases transfer_cases s m sz an l ((List.range n).map at_) access newA with ⟨e, _⟩ | ⟨_, e, _⟩ | ⟨_, _, e⟩
    · exact absurd e hl
    · exact absurd e ha
    · exact e
  refine ⟨fun h => ?_, fun k q hk hj hq => ?_⟩
  · simp only [e, dataAccess_default]
    exact dataAccess_of_inMemory (by simpa using h)
  · simp only [e]
    refine dataAccess_of_barredBy (k := k) (a := at_ k) (by simp [hk]) hq fun j b hjk hb => ?_
    rw [List.getElem?_map, List.getElem?_range (by omega)] at hb
    cases hb
    exact hj j hjk

/-! ## The instructions -/

/-- The loads of a selection, from the sequence of its accesses. -/
theorem loadsSelection_of_transfer {i : Instr} {s : State} {sz : Size} {an : AddrNum} {l : List SelReg}
    {at_ : Nat → Word} {newA : Word} {edas : List Word} {access : State → State}
    (h : exec i s = s.transfer Config.dmemRegions sz an l edas access newA)
    (hacc : access s = loadsAt sz l at_ s) (hl : l ≠ []) (ha : SelReg.gpr (1#1 ++ an) ∉ l) (hn : l.Nodup) :
    LoadsSelection i s sz (1#1 ++ an) l at_ newA := by
  rcases transfer_cases s Config.dmemRegions sz an l edas access newA with ⟨e, _⟩ | ⟨_, e, _⟩ | ⟨_, _, e⟩
  · exact absurd e hl
  · exact absurd e ha
  · rw [dataAccess_default] at e
    have hsel : ∀ (k : Nat) (r : SelReg), l[k]? = some r →
        (((access s).setReg (1#1 ++ an) newA).advance).sel r = s.dataAt sz (at_ k) := by
      intro k r hr
      rw [hacc, ← loadsAt_sel sz l hn at_ s k r hr]
      cases r with
      | sa => rfl
      | gpr r =>
        have hne : r ≠ 1#1 ++ an := fun e => ha (e ▸ List.mem_of_getElem? hr)
        simp [State.sel, setReg_reg, hne]
    refine ⟨_, h.trans e, fun k r hr => hsel k r hr ▸ dataAt_reads .., by simp, ?_, ?_, ?_⟩
    · rw [advance_outputs, setReg_outputs, hacc, loadsAt_outputs, ← hacc]
      congr 2
      apply List.ext_getElem?
      intro k
      simp only [List.getElem?_mapIdx]
      cases hk : l[k]? with
      | none => rfl
      | some r => simp only [Option.map_some, hsel k r hk]
    · apply inSequence_of_succ
      have : (loadsAt sz l at_ s).pc = s.pc :=
        loadsAt_kept sz l at_ s .pc (by simp; intro x _; cases x <;> simp [selPart])
      simp [hacc, this]
    · intro p hp
      have := loadsAt_kept sz l at_ s p (by simp_all)
      rw [hacc]
      cases p <;> simp_all [Part.Same, setReg_reg]

/-- The stores of a selection, from the sequence of its accesses, which do not overlap. -/
theorem storesSelection_of_transfer {i : Instr} {s : State} {sz : Size} {an : AddrNum} {l : List SelReg}
    {at_ : Nat → Word} {newA : Word} {edas : List Word} {access : State → State}
    (h : exec i s = s.transfer Config.dmemRegions sz an l edas access newA)
    (hacc : access s = storesAt sz l at_ s) (hl : l ≠ []) (ha : SelReg.gpr (1#1 ++ an) ∉ l)
    (hd : ∀ j k : Nat, j < k → k < l.length → ∀ p ∈ accessBytes sz (at_ j), p ∉ accessBytes sz (at_ k)) :
    StoresSelection i s sz (1#1 ++ an) l at_ newA := by
  rcases transfer_cases s Config.dmemRegions sz an l edas access newA with ⟨e, _⟩ | ⟨_, e, _⟩ | ⟨_, _, e⟩
  · exact absurd e hl
  · exact absurd e ha
  · rw [dataAccess_default] at e
    refine ⟨_, h.trans e, ?_, by simp, by simp [hacc, storesAt_outputs], ?_, ?_⟩
    · intro k r hr
      have := storesAt_holds sz l at_ s hd k r hr
      rw [hacc]
      cases sz <;> simpa [Holds] using this
    · apply inSequence_of_succ
      have : (storesAt sz l at_ s).pc = s.pc :=
        storesAt_kept sz l at_ s .pc (by simp; intro x _; cases sz <;> simp [accessBytes, shortBytes])
      simp [hacc, this]
    · intro p hp
      have := storesAt_kept sz l at_ s p (by simp_all)
      rw [hacc]
      cases p <;> simp_all [Part.Same, setReg_reg]

end Sys2Proof.Machine
end

