-- ==== Sys2Proof/Tests/Slice0.lean ====
section
/-! SUPPORT. Tests of the model: the checks of WellFormed, the decoding of a written-out word for every constructor, one
or two steps for every instruction with results computed by the spec (95_test_vectors.md) or by hand from its rules, and
a witness for the hypotheses of each statement. -/

open Sys2Proof Sys2Proof.Machine

namespace Sys2Proof.Tests

/-! ## Helpers -/

/-- The flags N, Z, O, C from four digits. -/
def nzoc (v : BitVec 4) : Flags := ⟨v.getLsbD 3, v.getLsbD 2, v.getLsbD 1, v.getLsbD 0⟩

/-- The state after reset with pc = 0x0100 and the registers given. -/
def start (regs : List (RegNum × Word)) : State :=
  regs.foldl (fun s r => s.setReg r.1 r.2) { State.reset with pc := 0x0100 }

/-- The state with the bytes given written to data memory. -/
def filled (bytes : List (Word × Byte)) (s : State) : State := bytes.foldl (fun s b => s.putByte b.1 b.2) s

/-- The outcome is a next state that satisfies `p`. -/
def Result.meets (o : Result) (p : State → Bool) : Bool :=
  match o with
  | .next t => p t
  | _ => false

/-- One step from `s` over the word `w` gives a next state that satisfies `p`. -/
def after (s : State) (w : Nat) (p : State → Bool) : Bool := (Result.meets (step (s.withFetchWord 20 w)) p)

/-- One step from `s` over the word `w` is refused for the reason `r`. -/
def refusedAfter (s : State) (w : Nat) (r : Refusal) : Bool :=
  match step (s.withFetchWord 20 w) with
  | .refused q => q == r
  | _ => false


/-! ## WellFormed: an ill-formed term for each check, and a well-formed neighbour -/

theorem test_wellFormed_specialRegister :
    Instr.wellFormed (.mfsr 3 1) = false ∧ Instr.wellFormed (.mtsrReg 1 5) = false ∧
    Instr.wellFormed (.mtsrImm 0 11) = false ∧ Instr.wellFormed (.mfsr 4 1) = true ∧
    Instr.wellFormed (.mtsrReg 1 12) = true ∧ Instr.wellFormed (.mtsrImm 0 0) = true := by decide

theorem test_wellFormed_mlcu : Instr.wellFormed (.mlcu 1 1) = false := by decide

theorem test_wellFormed_updatedLoad :
    Instr.wellFormed (.ldbtPostInc 0 8) = false ∧ Instr.wellFormed (.ldbtPreDec 1 9) = false ∧
    Instr.wellFormed (.ldbtPostUpd 7 15) = false ∧ Instr.wellFormed (.ldshPostInc 2 10) = false ∧
    Instr.wellFormed (.ldshPreDec 3 11) = false ∧ Instr.wellFormed (.ldshPostUpd 4 12) = false ∧
    Instr.wellFormed (.ldbtPostInc 0 9) = true ∧ Instr.wellFormed (.ldshPreDec 3 3) = true := by decide

theorem test_wellFormed_preDecStore :
    Instr.wellFormed (.stbtPreDec 8 0) = false ∧ Instr.wellFormed (.stshPreDec 15 7) = false ∧
    Instr.wellFormed (.stshPostInc 8 0) = true ∧ Instr.wellFormed (.stbtPreDec 8 1) = true := by decide

theorem test_wellFormed_emptySelection :
    Instr.wellFormed (.ldbtPostIncSel 0 0) = false ∧ Instr.wellFormed (.ldbtPreDecSel 0 0) = false ∧
    Instr.wellFormed (.ldshPostIncSel 0 0) = false ∧ Instr.wellFormed (.ldshPreDecSel 0 0) = false ∧
    Instr.wellFormed (.stbtPostIncSel 0 0) = false ∧ Instr.wellFormed (.stbtPreDecSel 0 0) = false ∧
    Instr.wellFormed (.stshPostIncSel 0 0) = false ∧ Instr.wellFormed (.stshPreDecSel 0 0) = false := by decide

/-- R9 is in the short selections by flag 7 upward and flag 2 downward, RC in the byte ones by flag 8 and flag 1. -/
theorem test_wellFormed_selectionHoldsAn :
    Instr.wellFormed (.ldbtPostIncSel 4 0b0100000001) = false ∧ Instr.wellFormed (.ldbtPreDecSel 4 0b0000000011) = false ∧
    Instr.wellFormed (.ldshPostIncSel 1 0b0010000001) = false ∧ Instr.wellFormed (.ldshPreDecSel 1 0b0000000101) = false ∧
    Instr.wellFormed (.stbtPostIncSel 0b0100000001 4) = false ∧ Instr.wellFormed (.stbtPreDecSel 0b0000000011 4) = false ∧
    Instr.wellFormed (.stshPostIncSel 0b0010000001 1) = false ∧ Instr.wellFormed (.stshPreDecSel 0b0000000101 1) = false ∧
    Instr.wellFormed (.ldshPostIncSel 0 0b0010000001) = true ∧ Instr.wellFormed (.stshPreDecSel 0b0000000101 0) = true := by
  decide


/-! ## Decoding: a word of every constructor, its bits from 19 to 0 written out from the opcode table -/

theorem test_decode_Arithmetic1 :
    decode 0b00001101011000111010#20 = .ok (.subfReg 0b1101 0b0110 0b0011) ∧
    decode 0b00011101011000111010#20 = .ok (.addtReg 0b1101 0b0110 0b0011) ∧
    decode 0b00101101011000111010#20 = .ok (.subc 0b1101 0b0110 0b0011) ∧
    decode 0b00111101011000111010#20 = .ok (.addc 0b1101 0b0110 0b0011) ∧
    decode 0b01000010110101101110#20 = .ok (.negt 0b1101 0b0110) ∧
    decode 0b01000011110101101110#20 = .ok (.absl 0b1101 0b0110) ∧
    decode 0b01000101110101101110#20 = .ok (.clzr 0b1101 0b0110) ∧
    decode 0b01000110110101101110#20 = .ok (.sxbt 0b1101 0b0110) ∧
    decode 0b01000111110101101110#20 = .ok (.sxsh 0b1101 0b0110) ∧
    decode 0b01001000110101101110#20 = .ok (.sbcf 0b1101 0b0110) ∧
    decode 0b01001001110101101110#20 = .ok (.adcf 0b1101 0b0110) ∧
    decode 0b01001010110100001110#20 = .ok (.cpcf 0b1101) ∧
    decode 0b01011000110101101110#20 = .ok (.compReg 0b1101 0b0110) ∧
    decode 0b01011001110101101110#20 = .ok (.cmpc 0b1101 0b0110) ∧
    decode 0b11100111000011010010#20 = .ok (.subfImm 0b10110011 0b1101) ∧
    decode 0b11100111000111010010#20 = .ok (.addtImm 0b10110011 0b1101) := by decide

theorem test_decode_Arithmetic2 :
    decode 0b11100111001111010010#20 = .ok (.addh 0b10110011 0b1101) ∧
    decode 0b10011101110011011010#20 = .ok (.compImm 0b1011001110 0b1101) := by decide

theorem test_decode_Logic :
    decode 0b01011101011000111010#20 = .ok (.andbReg 0b1101 0b0110 0b0011) ∧
    decode 0b01101101011000111010#20 = .ok (.iorbReg 0b1101 0b0110 0b0011) ∧
    decode 0b01111101011000111010#20 = .ok (.xorbReg 0b1101 0b0110 0b0011) ∧
    decode 0b01000100110101101110#20 = .ok (.invt 0b1101 0b0110) ∧
    decode 0b11100111010111010010#20 = .ok (.andbImm 0b10110011 0b1101) ∧
    decode 0b11100111011011010010#20 = .ok (.iorbImm 0b10110011 0b1101) ∧
    decode 0b11100111011111010010#20 = .ok (.xorbImm 0b10110011 0b1101) := by decide

theorem test_decode_Multiply :
    decode 0b00001101011000111110#20 = .ok (.mult 0b1101 0b0110 0b0011) ∧
    decode 0b00101101011000111110#20 = .ok (.mlhu 0b1101 0b0110 0b0011) ∧
    decode 0b00111101011000111110#20 = .ok (.mlhs 0b1101 0b0110 0b0011) := by decide

theorem test_decode_Shift :
    decode 0b00001101011000110010#20 = .ok (.shlzReg 0b1101 0b0110 0b0011) ∧
    decode 0b00001011110101100110#20 = .ok (.shlzImm 0b1011 0b1101 0b0110) ∧
    decode 0b00011101011000110010#20 = .ok (.shruReg 0b1101 0b0110 0b0011) ∧
    decode 0b00011011110101100110#20 = .ok (.shruImm 0b1011 0b1101 0b0110) ∧
    decode 0b00101101011000110010#20 = .ok (.shlfReg 0b1101 0b0110 0b0011) ∧
    decode 0b00101011110101100110#20 = .ok (.shlfImm 0b1011 0b1101 0b0110) ∧
    decode 0b00111101011000110010#20 = .ok (.shrsReg 0b1101 0b0110 0b0011) ∧
    decode 0b00111011110101100110#20 = .ok (.shrsImm 0b1011 0b1101 0b0110) := by decide

theorem test_decode_Bit :
    decode 0b01001101011000110010#20 = .ok (.btclReg 0b1101 0b0110 0b0011) ∧
    decode 0b01001011110101100110#20 = .ok (.btclImm 0b1011 0b1101 0b0110) ∧
    decode 0b01101101011000110010#20 = .ok (.btstReg 0b1101 0b0110 0b0011) ∧
    decode 0b01101011110101100110#20 = .ok (.btstImm 0b1011 0b1101 0b0110) ∧
    decode 0b01111101011000110010#20 = .ok (.bttgReg 0b1101 0b0110 0b0011) ∧
    decode 0b01111011110101100110#20 = .ok (.bttgImm 0b1011 0b1101 0b0110) ∧
    decode 0b01011101011000000010#20 = .ok (.bttsReg 0b1101 0b0110) ∧
    decode 0b01011011110100000110#20 = .ok (.bttsImm 0b1011 0b1101) := by decide

theorem test_decode_Move :
    decode 0b01000000110101101110#20 = .ok (.moveReg 0b1101 0b0110) ∧
    decode 0b01010000000011011110#20 = .ok (.mfdp 0b1101) ∧
    decode 0b01010001110100001110#20 = .ok (.mtdp 0b1101) ∧
    decode 0b01010010110101101110#20 = .ok (.mfsr 0b1101 0b0110) ∧
    decode 0b01010011110101101110#20 = .ok (.mtsrReg 0b1101 0b0110) ∧
    decode 0b10011101110011010110#20 = .ok (.moveImm 0b1011001110 0b1101) ∧
    decode 0b10011101110111010110#20 = .ok (.mvsr 0b1011001110 0b1101) ∧
    decode 0b10011101110011011110#20 = .ok (.mtsrImm 0b1011001110 0b1101) := by decide

theorem test_decode_LoadStore1 :
    decode 0b00111001001111010000#20 = .ok (.ldbtDirect 0b10110011100 0b1101) ∧
    decode 0b01100111010111010001#20 = .ok (.ldbtOffset 0b10110011 0b101 0b1101) ∧
    decode 0b10001101010101100000#20 = .ok (.ldbtIndex 0b1101 0b101 0b0110) ∧
    decode 0b10100000010111010000#20 = .ok (.ldbtPostInc 0b101 0b1101) ∧
    decode 0b10100000110111010000#20 = .ok (.ldbtPreDec 0b101 0b1101) ∧
    decode 0b10110000010111010000#20 = .ok (.ldbtPostUpd 0b101 0b1101) ∧
    decode 0b11101100010111100000#20 = .ok (.ldbtPostIncSel 0b101 0b1011001110) ∧
    decode 0b11101100110111100000#20 = .ok (.ldbtPreDecSel 0b101 0b1011001110) ∧
    decode 0b00111001001111010100#20 = .ok (.ldshDirect 0b10110011100 0b1101) ∧
    decode 0b01100111010111010101#20 = .ok (.ldshOffset 0b10110011 0b101 0b1101) ∧
    decode 0b10001101010101100100#20 = .ok (.ldshIndex 0b1101 0b101 0b0110) ∧
    decode 0b10100000010111010100#20 = .ok (.ldshPostInc 0b101 0b1101) ∧
    decode 0b10100000110111010100#20 = .ok (.ldshPreDec 0b101 0b1101) ∧
    decode 0b10110000010111010100#20 = .ok (.ldshPostUpd 0b101 0b1101) ∧
    decode 0b11101100010111100100#20 = .ok (.ldshPostIncSel 0b101 0b1011001110) ∧
    decode 0b11101100110111100100#20 = .ok (.ldshPreDecSel 0b101 0b1011001110) := by decide

theorem test_decode_LoadStore2 :
    decode 0b00111001001111011000#20 = .ok (.stbtDirect 0b1101 0b10110011100) ∧
    decode 0b01100111010111011001#20 = .ok (.stbtOffset 0b1101 0b10110011 0b101) ∧
    decode 0b10000110010111011000#20 = .ok (.stbtIndex 0b1101 0b0110 0b101) ∧
    decode 0b10100000010111011000#20 = .ok (.stbtPostInc 0b1101 0b101) ∧
    decode 0b10100000110111011000#20 = .ok (.stbtPreDec 0b1101 0b101) ∧
    decode 0b10110000010111011000#20 = .ok (.stbtPostUpd 0b1101 0b101) ∧
    decode 0b11101100010111101000#20 = .ok (.stbtPostIncSel 0b1011001110 0b101) ∧
    decode 0b11101100110111101000#20 = .ok (.stbtPreDecSel 0b1011001110 0b101) ∧
    decode 0b00111001001111011100#20 = .ok (.stshDirect 0b1101 0b10110011100) ∧
    decode 0b01100111010111011101#20 = .ok (.stshOffset 0b1101 0b10110011 0b101) ∧
    decode 0b10000110010111011100#20 = .ok (.stshIndex 0b1101 0b0110 0b101) ∧
    decode 0b10100000010111011100#20 = .ok (.stshPostInc 0b1101 0b101) ∧
    decode 0b10100000110111011100#20 = .ok (.stshPreDec 0b1101 0b101) ∧
    decode 0b10110000010111011100#20 = .ok (.stshPostUpd 0b1101 0b101) ∧
    decode 0b11101100010111101100#20 = .ok (.stshPostIncSel 0b1011001110 0b101) ∧
    decode 0b11101100110111101100#20 = .ok (.stshPreDecSel 0b1011001110 0b101) := by decide

theorem test_decode_Flow1 :
    decode 0b10101100111000101101#20 = .ok (.jpsrAbs 0b1011001110001011) ∧
    decode 0b11001110001010110001#20 = .ok (.bral 0b10110011100010) ∧
    decode 0b11101100111010001001#20 = .ok (.brnc 0b1011001110 true) ∧
    decode 0b11101100111010011001#20 = .ok (.brcr 0b1011001110 true) ∧
    decode 0b11101100111010101001#20 = .ok (.brno 0b1011001110 true) ∧
    decode 0b11101100111010111001#20 = .ok (.brof 0b1011001110 true) ∧
    decode 0b11101100111011001001#20 = .ok (.brnz 0b1011001110 true) ∧
    decode 0b11101100111011011001#20 = .ok (.brzr 0b1011001110 true) ∧
    decode 0b11101100111011101001#20 = .ok (.brps 0b1011001110 true) ∧
    decode 0b11101100111011111001#20 = .ok (.brng 0b1011001110 true) ∧
    decode 0b11101100111010001101#20 = .ok (.brls 0b1011001110 true) ∧
    decode 0b11101100111010011101#20 = .ok (.brhi 0b1011001110 true) ∧
    decode 0b11101100111010111101#20 = .ok (.brge 0b1011001110 true) ∧
    decode 0b11101100111011011101#20 = .ok (.brgt 0b1011001110 true) ∧
    decode 0b11101100111011101101#20 = .ok (.brlo 0b1011001110 true) ∧
    decode 0b11101100111011001101#20 = .ok (.brle 0b1011001110 true) := by decide

theorem test_decode_Flow2 :
    decode 0b11101100111001111101#20 = .ok (.brlc 0b1011001110) ∧
    decode 0b11000000000000000101#20 = .ok .jump ∧
    decode 0b11000000000000010101#20 = .ok .jpsr ∧
    decode 0b11000000000000100101#20 = .ok .rtsr ∧
    decode 0b11000000000000110101#20 = .ok .rtir ∧
    decode 0b11000000000010000101#20 = .ok .stie ∧
    decode 0b11000000000010010101#20 = .ok .clie ∧
    decode 0b11000000000010100101#20 = .ok .rsie ∧
    decode 0b11000000000010110101#20 = .ok .scie := by decide

theorem test_decode_Debug :
    decode 0b11000000000001000101#20 = .ok .stop ∧
    decode 0b11000000000001100101#20 = .ok .svpc ∧
    decode 0b11000000000001110101#20 = .ok .rspc := by decide

/-- `mlcu 0xB3,RD` under both codes of the parameter, and reserved with the parameter unset. -/
theorem test_decode_mlcu :
    decodeWith (some .fn010) 0b11100111001011010010#20 = .ok (.mlcu 0xB3 0xD) ∧
    decodeWith (some .fn100) 0b11100111010011010010#20 = .ok (.mlcu 0xB3 0xD) ∧
    decode 0b11100111001011010010#20 = .error .constant8 ∧ decode 0b11100111010011010010#20 = .error .constant8 := by
  decide

/-- A reserved word of each class (R142). -/
theorem test_decode_reserved :
    decode 0b00000000000000000011#20 = .error .low11 ∧ decode 0b10010000000000000000#20 = .error .loadStoreMode ∧
    decode 0b11000000000001010101#20 = .error .flow ∧ decode 0b01000000000000001010#20 = .error .arithmeticLogic ∧
    decode 0b10000000000100001010#20 = .error .compareConstant ∧ decode 0b00010000000000001110#20 = .error .twoRegister ∧
    decode 0b10000000000100001110#20 = .error .moveConstant ∧ decode 0b10000000010000000010#20 = .error .constant8 ∧
    decode 0b01010000000000010010#20 = .error .bitTest := by decide

/-- The encoder writes the word of the worked example `addt R1,R2,R3` (R148). -/
theorem test_encode_addt : encode (.addtReg 1 2 3) = some 0x1123A#20 := by decide

/-- A table word is one 20-bit word: a number above 20 bits is none. -/
theorem test_decodeTableWord :
    decodeTableWord 24 0xC0035 = some .rtir ∧ decodeTableWord 24 0x10C0035 = none := by decide

/-! ## Steps: fetch, decode and execute one word -/

/-- `subf R1,R2,R3`: vector A15. -/
theorem test_subfReg_A15 : after (start [(1, 0x0001), (2, 0x8000)]) 0x0123A (fun t => t.reg 3 == 0x7FFF && t.cc ==
      nzoc 0b0010 && t.pc == 0x0101) = true := by
  decide

/-- `subf R1,R2,R3`: vector A17. -/
theorem test_subfReg_A17 : after (start [(1, 0x8000), (2, 0x7FFF)]) 0x0123A (fun t => t.reg 3 == 0xFFFF && t.cc ==
      nzoc 0b1011 && t.pc == 0x0101) = true := by
  decide

/-- `addt R1,R2,R3`: vector A3. -/
theorem test_addtReg_A3 : after (start [(1, 0x8000), (2, 0x8000)]) 0x1123A (fun t => t.reg 3 == 0x0000 && t.cc ==
      nzoc 0b0111 && t.pc == 0x0101) = true := by
  decide

/-- `addt R4,R4,R4`: vector A4. -/
theorem test_addtReg_A4 : after ({ start [(4, 0x4000)] with cc := nzoc 0b1111 }) 0x1444A (fun t => t.reg 4 ==
      0x8000 && t.cc == nzoc 0b1010 && t.pc == 0x0101) = true := by
  decide

/-- `subc R1,R2,R3`: vector A20. -/
theorem test_subc_A20 : after ({ start [(1, 0x0000), (2, 0x0000)] with cc := nzoc 0b0101 }) 0x2123A (fun t => t.reg
      3 == 0xFFFF && t.cc == nzoc 0b1001 && t.pc == 0x0101) = true := by
  decide

/-- `subc R1,R2,R3`: vector A22. -/
theorem test_subc_A22 : after ({ start [(1, 0x0000), (2, 0x0001)] with cc := nzoc 0b0001 }) 0x2123A (fun t => t.reg
      3 == 0x0000 && t.cc == nzoc 0b0000 && t.pc == 0x0101) = true := by
  decide

/-- `addc R1,R2,R3`: vector A8. -/
theorem test_addc_A8 : after ({ start [(1, 0xFFFF), (2, 0x0000)] with cc := nzoc 0b0001 }) 0x3123A (fun t => t.reg
      3 == 0x0000 && t.cc == nzoc 0b0001 && t.pc == 0x0101) = true := by
  decide

/-- `addc R1,R2,R3`: vector A9. -/
theorem test_addc_A9 : after ({ start [(1, 0x7FFF), (2, 0x0000)] with cc := nzoc 0b0101 }) 0x3123A (fun t => t.reg
      3 == 0x8000 && t.cc == nzoc 0b1010 && t.pc == 0x0101) = true := by
  decide

/-- `andb R1,R2,R3`: vector L3. -/
theorem test_andbReg_L3 : after ({ start [(1, 0xFFFF), (2, 0x0007)] with cc := nzoc 0b0001 }) 0x5123A (fun t =>
      t.reg 3 == 0x0007 && t.cc == nzoc 0b0001 && t.pc == 0x0101) = true := by
  decide

/-- `andb R1,R2,R3`: vector L5. -/
theorem test_andbReg_L5 : after ({ start [(1, 0xAAAA), (2, 0x5555)] with cc := nzoc 0b0001 }) 0x5123A (fun t =>
      t.reg 3 == 0x0000 && t.cc == nzoc 0b0110 && t.pc == 0x0101) = true := by
  decide

/-- `iorb R1,R2,R3`: vector L7. -/
theorem test_iorbReg_L7 : after ({ start [(1, 0xF000), (2, 0x000F)] with cc := nzoc 0b1111 }) 0x6123A (fun t =>
      t.reg 3 == 0xF00F && t.cc == nzoc 0b1111 && t.pc == 0x0101) = true := by
  decide

/-- `xorb R1,R2,R3`: vector L9. -/
theorem test_xorbReg_L9 : after ({ start [(1, 0xFFFF), (2, 0x1234)] with cc := nzoc 0b1111 }) 0x7123A (fun t =>
      t.reg 3 == 0xEDCB && t.cc == nzoc 0b1111 && t.pc == 0x0101) = true := by
  decide

/-- `mult R1,R2,R3`: vector M1. -/
theorem test_mult_M1 : after ({ start [(1, 0x0100), (2, 0x0123)] with cc := nzoc 0b1111 }) 0x0123E (fun t => t.reg
      3 == 0x2300 && t.cc == nzoc 0b1111 && t.pc == 0x0101) = true := by
  decide

/-- `mlhu R1,R2,R3`: vector M4. -/
theorem test_mlhu_M4 : after (start [(1, 0xFFFF), (2, 0xFFFF)]) 0x2123E (fun t => t.reg 3 == 0xFFFE && t.cc == nzoc
      0b0000 && t.pc == 0x0101) = true := by
  decide

/-- `mlhs R1,R2,R3`: vector M7. -/
theorem test_mlhs_M7 : after (start [(1, 0xFFFF), (2, 0x0002)]) 0x3123E (fun t => t.reg 3 == 0xFFFF && t.cc == nzoc
      0b0000 && t.pc == 0x0101) = true := by
  decide

/-- `mlhs R1,R2,R3`: vector M8. -/
theorem test_mlhs_M8 : after (start [(1, 0x8000), (2, 0x8000)]) 0x3123E (fun t => t.reg 3 == 0x4000 && t.cc == nzoc
      0b0000 && t.pc == 0x0101) = true := by
  decide

/-- `shlz R3,R1,R2`: vector S5. -/
theorem test_shlzReg_S5 : after (start [(1, 0x0001), (3, 0x0010)]) 0x03122 (fun t => t.reg 2 == 0x0001 && t.cc ==
      nzoc 0b0000 && t.pc == 0x0101) = true := by
  decide

/-- `shlz 4,R1,R2`: vector S1. -/
theorem test_shlzImm_S1 : after ({ start [(1, 0x1234)] with cc := nzoc 0b1111 }) 0x04126 (fun t => t.reg 2 ==
      0x2340 && t.cc == nzoc 0b1111 && t.pc == 0x0101) = true := by
  decide

/-- `shru R3,R1,R2`: vector S8. -/
theorem test_shruReg_S8 : after (start [(1, 0xFFFF), (3, 0x0001)]) 0x13122 (fun t => t.reg 2 == 0x7FFF && t.cc ==
      nzoc 0b0000 && t.pc == 0x0101) = true := by
  decide

/-- `shru 4,R1,R2`: vector S6. -/
theorem test_shruImm_S6 : after (start [(1, 0x8234)]) 0x14126 (fun t => t.reg 2 == 0x0823 && t.cc == nzoc 0b0000 &&
      t.pc == 0x0101) = true := by
  decide

/-- `shlf R3,R1,R2`: vector S16. -/
theorem test_shlfReg_S16 : after (start [(1, 0x00FF), (3, 0x000C)]) 0x23122 (fun t => t.reg 2 == 0xF00F && t.cc ==
      nzoc 0b0000 && t.pc == 0x0101) = true := by
  decide

/-- `shlf 4,R1,R2`: vector S13. -/
theorem test_shlfImm_S13 : after (start [(1, 0x1234)]) 0x24126 (fun t => t.reg 2 == 0x2341 && t.cc == nzoc 0b0000
      && t.pc == 0x0101) = true := by
  decide

/-- `shlf 0,R1,R2`: vector S15. -/
theorem test_shlfImm_S15 : after (start [(1, 0x8001)]) 0x20126 (fun t => t.reg 2 == 0x8001 && t.cc == nzoc 0b0000
      && t.pc == 0x0101) = true := by
  decide

/-- `shrs R3,R1,R2`: vector S12. -/
theorem test_shrsReg_S12 : after (start [(1, 0xFF00), (3, 0x0004)]) 0x33122 (fun t => t.reg 2 == 0xFFF0 && t.cc ==
      nzoc 0b0000 && t.pc == 0x0101) = true := by
  decide

/-- `shrs 4,R1,R2`: vector S9. -/
theorem test_shrsImm_S9 : after (start [(1, 0x8234)]) 0x34126 (fun t => t.reg 2 == 0xF823 && t.cc == nzoc 0b0000 &&
      t.pc == 0x0101) = true := by
  decide

/-- `shrs 15,R1,R2`: vector S11. -/
theorem test_shrsImm_S11 : after (start [(1, 0x7FFF)]) 0x3F126 (fun t => t.reg 2 == 0x0000 && t.cc == nzoc 0b0000
      && t.pc == 0x0101) = true := by
  decide

/-- `btcl R3,R1,R2`: vector B3. -/
theorem test_btclReg_B3 : after (start [(1, 0x00FF), (3, 0x1234)]) 0x43122 (fun t => t.reg 2 == 0x00EF && t.cc ==
      nzoc 0b0000 && t.pc == 0x0101) = true := by
  decide

/-- `btcl 15,R1,R2`: vector B1. -/
theorem test_btclImm_B1 : after ({ start [(1, 0xFFFF)] with cc := nzoc 0b1111 }) 0x4F126 (fun t => t.reg 2 ==
      0x7FFF && t.cc == nzoc 0b1111 && t.pc == 0x0101) = true := by
  decide

/-- `btst R3,R1,R2`: vector B5. -/
theorem test_btstReg_B5 : after (start [(1, 0x0001), (3, 0x0003)]) 0x63122 (fun t => t.reg 2 == 0x0009 && t.cc ==
      nzoc 0b0000 && t.pc == 0x0101) = true := by
  decide

/-- `btst 15,R1,R2`: vector B4. -/
theorem test_btstImm_B4 : after (start [(1, 0x0000)]) 0x6F126 (fun t => t.reg 2 == 0x8000 && t.cc == nzoc 0b0000 &&
      t.pc == 0x0101) = true := by
  decide

/-- `bttg R3,R1,R1`: vector B7. -/
theorem test_bttgReg_B7 : after (start [(1, 0x0000), (3, 0xFFFF)]) 0x73112 (fun t => t.reg 1 == 0x8000 && t.cc ==
      nzoc 0b0000 && t.pc == 0x0101) = true := by
  decide

/-- `bttg 7,R1,R2`: vector B6. -/
theorem test_bttgImm_B6 : after (start [(1, 0x00FF)]) 0x77126 (fun t => t.reg 2 == 0x007F && t.cc == nzoc 0b0000 &&
      t.pc == 0x0101) = true := by
  decide

/-- `btts R3,R1`: vector B11. -/
theorem test_bttsReg_B11 : after (start [(1, 0x0100), (3, 0x0008)]) 0x53102 (fun t => t.reg 1 == 0x0100 && t.cc ==
      nzoc 0b0000 && t.pc == 0x0101) = true := by
  decide

/-- `btts 15,R1`: vector B8. -/
theorem test_bttsImm_B8 : after ({ start [(1, 0x8000)] with cc := nzoc 0b0111 }) 0x5F106 (fun t => t.reg 1 ==
      0x8000 && t.cc == nzoc 0b1000 && t.pc == 0x0101) = true := by
  decide

/-- `btts 3,R1`: vector B10. -/
theorem test_bttsImm_B10 : after ({ start [(1, 0xFFF7)] with cc := nzoc 0b1011 }) 0x53106 (fun t => t.reg 1 ==
      0xFFF7 && t.cc == nzoc 0b0100 && t.pc == 0x0101) = true := by
  decide

/-- `move R1,R2`: vector V1. -/
theorem test_moveReg_V1 : after ({ start [(1, 0xBEEF)] with cc := nzoc 0b1010 }) 0x4012E (fun t => t.reg 2 ==
      0xBEEF && t.cc == nzoc 0b1010 && t.pc == 0x0101) = true := by
  decide

/-- `negt R1,R2`: vector A46. -/
theorem test_negt_A46 : after ({ start [(1, 0x0001)] with cc := nzoc 0b0101 }) 0x4212E (fun t => t.reg 2 == 0xFFFF
      && t.cc == nzoc 0b0101 && t.pc == 0x0101) = true := by
  decide

/-- `absl R1,R2`: vector A43. -/
theorem test_absl_A43 : after ({ start [(1, 0xFFFB)] with cc := nzoc 0b1010 }) 0x4312E (fun t => t.reg 2 == 0x0005
      && t.cc == nzoc 0b1010 && t.pc == 0x0101) = true := by
  decide

/-- `absl R1,R2`: vector A44. -/
theorem test_absl_A44 : after (start [(1, 0x8000)]) 0x4312E (fun t => t.reg 2 == 0x8000 && t.cc == nzoc 0b0000 &&
      t.pc == 0x0101) = true := by
  decide

/-- `invt R1,R2`: vector L12. -/
theorem test_invt_L12 : after ({ start [(1, 0x00FF)] with cc := nzoc 0b0101 }) 0x4412E (fun t => t.reg 2 == 0xFF00
      && t.cc == nzoc 0b0101 && t.pc == 0x0101) = true := by
  decide

/-- `clzr R1,R2`: vector A49. -/
theorem test_clzr_A49 : after (start [(1, 0x0000)]) 0x4512E (fun t => t.reg 2 == 0x0010 && t.cc == nzoc 0b0000 &&
      t.pc == 0x0101) = true := by
  decide

/-- `clzr R1,R2`: vector A52. -/
theorem test_clzr_A52 : after (start [(1, 0x00F0)]) 0x4512E (fun t => t.reg 2 == 0x0008 && t.cc == nzoc 0b0000 &&
      t.pc == 0x0101) = true := by
  decide

/-- `sxbt R1,R2`: vector A53. -/
theorem test_sxbt_A53 : after (start [(1, 0x1280)]) 0x4612E (fun t => t.reg 2 == 0xFF80 && t.cc == nzoc 0b0000 &&
      t.pc == 0x0101) = true := by
  decide

/-- `sxsh R1,R2`: vector A55. -/
theorem test_sxsh_A55 : after (start [(1, 0x8000)]) 0x4712E (fun t => t.reg 2 == 0xFFFF && t.cc == nzoc 0b0000 &&
      t.pc == 0x0101) = true := by
  decide

/-- `sbcf R1,R2`: vector A24. -/
theorem test_sbcf_A24 : after ({ start [(1, 0x0000)] with cc := nzoc 0b0101 }) 0x4812E (fun t => t.reg 2 == 0xFFFF
      && t.cc == nzoc 0b1001 && t.pc == 0x0101) = true := by
  decide

/-- `sbcf R1,R2`: vector A25. -/
theorem test_sbcf_A25 : after ({ start [(1, 0x8000)] with cc := nzoc 0b0001 }) 0x4812E (fun t => t.reg 2 == 0x7FFF
      && t.cc == nzoc 0b0010 && t.pc == 0x0101) = true := by
  decide

/-- `adcf R1,R2`: vector A11. -/
theorem test_adcf_A11 : after ({ start [(1, 0xFFFF)] with cc := nzoc 0b0101 }) 0x4912E (fun t => t.reg 2 == 0x0000
      && t.cc == nzoc 0b0101 && t.pc == 0x0101) = true := by
  decide

/-- `adcf R1,R2`: vector A12. -/
theorem test_adcf_A12 : after ({ start [(1, 0x7FFF)] with cc := nzoc 0b0001 }) 0x4912E (fun t => t.reg 2 == 0x8000
      && t.cc == nzoc 0b1010 && t.pc == 0x0101) = true := by
  decide

/-- `cpcf R1`: vector A37. -/
theorem test_cpcf_A37 : after ({ start [(1, 0x0000)] with cc := nzoc 0b0101 }) 0x4A10E (fun t => t.cc == nzoc
      0b1001 && t.pc == 0x0101) = true := by
  decide

/-- `cpcf R1`: vector A39. -/
theorem test_cpcf_A39 : after ({ start [(1, 0x8000)] with cc := nzoc 0b0001 }) 0x4A10E (fun t => t.cc == nzoc
      0b0010 && t.pc == 0x0101) = true := by
  decide

/-- `mfdp R2`: vector V26. -/
theorem test_mfdp_V26 : after ({ start [] with dbi := some 0x3BEEF }) 0x5002E (fun t => t.reg 2 == 0xBEEF && t.pc
      == 0x0101) = true := by
  decide

/-- `mtdp R2`: vector V27. -/
theorem test_mtdp_V27 : after (start [(2, 0xCAFE)]) 0x5120E (fun t => t.dbo == 0xCAFE && t.pc == 0x0101) = true := by
  decide

/-- `mfsr CS,R1`: vector V9. -/
theorem test_mfsr_V9 : after ({ start [] with ivtp := 0x7FF, csIs := true, csIe := false, csIr := true }) 0x5211E
      (fun t => t.reg 1 == 0xFFE5 && t.cc == nzoc 0b0000 && t.pc == 0x0101) = true := by
  decide

/-- `mfsr U0,R1`: vector V11. -/
theorem test_mfsr_V11 : after ({ start [] with u0 := 0x3FE }) 0x5241E (fun t => t.reg 1 == 0xFFFE && t.cc == nzoc
      0b0000 && t.pc == 0x0101) = true := by
  decide

/-- `mtsr R1,CS`: vector V18. -/
theorem test_mtsrReg_V18 : after ({ start [(1, 0xFFFF)] with ivtp := 0x000, csIs := false, csIe := false, csIr :=
      true }) 0x5311E (fun t => t.ivtp == 0x7FF && !t.csIs && !t.csIe && t.csIr && t.pc == 0x0101) = true := by
  decide

/-- `mtsr R1,U0`: vector V20. -/
theorem test_mtsrReg_V20 : after (start [(1, 0xFFFE)]) 0x5314E (fun t => t.u0 == 0x3FE && t.pc == 0x0101) = true := by
  decide

/-- `comp R1,R2`: vector A29. -/
theorem test_compReg_A29 : after (start [(1, 0xFFFF), (2, 0x0001)]) 0x5812E (fun t => t.cc == nzoc 0b0001 && t.pc
      == 0x0101) = true := by
  decide

/-- `comp R1,R2`: vector A30. -/
theorem test_compReg_A30 : after (start [(1, 0x7FFF), (2, 0x8000)]) 0x5812E (fun t => t.cc == nzoc 0b0010 && t.pc
      == 0x0101) = true := by
  decide

/-- `cmpc R1,R2`: vector A35. -/
theorem test_cmpc_A35 : after ({ start [(1, 0x0000), (2, 0x0000)] with cc := nzoc 0b0001 }) 0x5912E (fun t => t.cc
      == nzoc 0b1001 && t.pc == 0x0101) = true := by
  decide

/-- `cmpc R1,R2`: vector A36. -/
theorem test_cmpc_A36 : after ({ start [(1, 0x0000), (2, 0x0001)] with cc := nzoc 0b0001 }) 0x5912E (fun t => t.cc
      == nzoc 0b0000 && t.pc == 0x0101) = true := by
  decide

/-- `subf 1,R5`: vector A18. -/
theorem test_subfImm_A18 : after (start [(5, 0x0000)]) 0x82052 (fun t => t.reg 5 == 0xFFFF && t.cc == nzoc 0b1001
      && t.pc == 0x0101) = true := by
  decide

/-- `addt 0xFF,R5`: vector A5. -/
theorem test_addtImm_A5 : after (start [(5, 0xFF01)]) 0xFF952 (fun t => t.reg 5 == 0x0000 && t.cc == nzoc 0b0101 &&
      t.pc == 0x0101) = true := by
  decide

/-- `addh 0x1200,R1`: vector A40. -/
theorem test_addh_A40 : after ({ start [(1, 0x0034)] with cc := nzoc 0b1111 }) 0xA4312 (fun t => t.reg 1 == 0x1234
      && t.cc == nzoc 0b1111 && t.pc == 0x0101) = true := by
  decide

/-- `andb 0x0F,R4`: vector L6. -/
theorem test_andbImm_L6 : after (start [(4, 0xABCD)]) 0x9E542 (fun t => t.reg 4 == 0x000D && t.cc == nzoc 0b0011 &&
      t.pc == 0x0101) = true := by
  decide

/-- `iorb 0x80,R4`: vector L8. -/
theorem test_iorbImm_L8 : after (start [(4, 0x0001)]) 0x81642 (fun t => t.reg 4 == 0x0081 && t.cc == nzoc 0b0000 &&
      t.pc == 0x0101) = true := by
  decide

/-- `xorb 0xFF,R4`: vector L11. -/
theorem test_xorbImm_L11 : after (start [(4, 0x1234)]) 0xFFF42 (fun t => t.reg 4 == 0x12CB && t.cc == nzoc 0b0000
      && t.pc == 0x0101) = true := by
  decide

/-- `move -512,R3`: vector V4. -/
theorem test_moveImm_V4 : after (start []) 0x80436 (fun t => t.reg 3 == 0xFE00 && t.cc == nzoc 0b0000 && t.pc ==
      0x0101) = true := by
  decide

/-- `mvsr -4,R9`: vector V6. -/
theorem test_mvsr_V6 : after (start [(8, 0x2000)]) 0xF9F96 (fun t => t.reg 9 == 0x1FFC && t.reg 8 == 0x2000 && t.cc
      == nzoc 0b0000 && t.pc == 0x0101) = true := by
  decide

/-- `comp -1,R2`: vector A31. -/
theorem test_compImm_A31 : after (start [(2, 0xFFFF)]) 0xFFE2A (fun t => t.cc == nzoc 0b0100 && t.pc == 0x0101) =
      true := by
  decide

/-- `comp -512,R2`: vector A33. -/
theorem test_compImm_A33 : after (start [(2, 0x0000)]) 0x8042A (fun t => t.cc == nzoc 0b0001 && t.pc == 0x0101) =
      true := by
  decide

/-- `mtsr 0,CC`: vector V17. -/
theorem test_mtsrImm_V17 : after ({ start [] with cc := nzoc 0b1111 }) 0x8000E (fun t => t.cc == nzoc 0b0000 &&
      t.pc == 0x0101) = true := by
  decide

/-- `mtsr 0x3FF,TA`: vector V22. -/
theorem test_mtsrImm_V22 : after (start []) 0xFFEEE (fun t => t.ta == 0x03FF && t.pc == 0x0101) = true := by
  decide

/-- `ldbt 0x100,R1`: vector T1. -/
theorem test_ldbtDirect_T1 : after (filled [(0x0100, 0x9C)] (start [])) 0x00210 (fun t => t.reg 1 == 0x009C && t.pc
      == 0x0101) = true := by
  decide

/-- `ldbt (-2,R8),R1`: vector T5. -/
theorem test_ldbtOffset_T5 : after (filled [(0x00FE, 0xEF)] (start [(8, 0x0100)])) 0x7D811 (fun t => t.reg 1 ==
      0x00EF && t.reg 8 == 0x0100 && t.pc == 0x0101) = true := by
  decide

/-- `ldbt (R2,R8),R1`: vector T8. -/
theorem test_ldbtIndex_T8 : after (filled [(0x0103, 0x80)] (start [(2, 0x0003), (8, 0x0100)])) 0x82010 (fun t =>
      t.reg 1 == 0x0080 && t.pc == 0x0101) = true := by
  decide

/-- `ldbt (R8)+,R1`: vector T11. -/
theorem test_ldbtPostInc_T11 : after (filled [(0x0100, 0x9C)] (start [(8, 0x0100)])) 0xA0010 (fun t => t.reg 1 ==
      0x009C && t.reg 8 == 0x0101 && t.pc == 0x0101) = true := by
  decide

/-- `ldbt -(RF),R1`: vector T15. -/
theorem test_ldbtPreDec_T15 : after (filled [(0xFFFF, 0x77)] (start [(15, 0x0000)])) 0xA0F10 (fun t => t.reg 1 ==
      0x0077 && t.reg 15 == 0xFFFF && t.pc == 0x0101) = true := by
  decide

/-- `ldbt (R8)*,R1`: vector T17. -/
theorem test_ldbtPostUpd_T17 : after ({ filled [(0x0100, 0x9C)] (start [(8, 0x0100)]) with u0 := 0x1FF }) 0xB0010
      (fun t => t.reg 1 == 0x009C && t.reg 8 == 0x02FF && t.pc == 0x0101) = true := by
  decide

/-- `ldbt (R8)+,{R0,R1,RD}`: vector T29. -/
theorem test_ldbtPostIncSel_T29 : after (filled [(0x0200, 0x10), (0x0201, 0x11), (0x0202, 0x12)] (start [(8,
      0x0200)])) 0xE8010 (fun t => t.reg 0 == 0x0010 && t.reg 1 == 0x0011 && t.reg 13 == 0x0012 && t.reg 8 == 0x0203 &&
      t.pc == 0x0101) = true := by
  decide

/-- `ldsh 0x101,R1`: vector T4. -/
theorem test_ldshDirect_T4 : after (filled [(0x0100, 0x9C), (0x0101, 0x12)] (start [])) 0x02214 (fun t => t.reg 1
      == 0x129C && t.pc == 0x0101) = true := by
  decide

/-- `ldsh (2,R9),R1`: vector T6. -/
theorem test_ldshOffset_T6 : after (filled [(0x0102, 0x34), (0x0103, 0x80)] (start [(9, 0x0100)])) 0x04115 (fun t
      => t.reg 1 == 0x8034 && t.reg 9 == 0x0100 && t.pc == 0x0101) = true := by
  decide

/-- `ldsh (R2,R8),R1`: vector T10. -/
theorem test_ldshIndex_T10 : after (filled [(0x00FE, 0xEF), (0x00FF, 0xBE)] (start [(2, 0xFFFF), (8, 0x0100)]))
      0x82014 (fun t => t.reg 1 == 0xBEEF && t.pc == 0x0101) = true := by
  decide

/-- `ldsh (R8)+,R1`: vector T13. -/
theorem test_ldshPostInc_T13 : after (filled [(0x0100, 0x9C), (0x0101, 0x12)] (start [(8, 0x0101)])) 0xA0014 (fun t
      => t.reg 1 == 0x129C && t.reg 8 == 0x0103 && t.pc == 0x0101) = true := by
  decide

/-- `ldsh (R8)+,R8`: vector T18. -/
theorem test_ldshPostInc_T18 : refusedAfter (start [(8, 0x0100)]) 0xA0084 .addressRegisterOverlap = true := by decide

/-- `ldsh -(R8),R1`: vector T14. -/
theorem test_ldshPreDec_T14 : after (filled [(0x00FE, 0xEF), (0x00FF, 0xBE)] (start [(8, 0x0100)])) 0xA0814 (fun t
      => t.reg 1 == 0xBEEF && t.reg 8 == 0x00FE && t.pc == 0x0101) = true := by
  decide

/-- `ldsh (R8)*,R1`: vector T16. -/
theorem test_ldshPostUpd_T16 : after ({ filled [(0x0100, 0x9C), (0x0101, 0x12)] (start [(8, 0x0100)]) with u0 :=
      0x3FE }) 0xB0014 (fun t => t.reg 1 == 0x129C && t.reg 8 == 0x00FE && t.pc == 0x0101) = true := by
  decide

/-- `ldsh (RF)+,{SA,R2,RB}`: vector T28. -/
theorem test_ldshPostIncSel_T28 : after (filled [(0x0200, 0x10), (0x0201, 0x11), (0x0202, 0x12), (0x0203, 0x13),
      (0x0204, 0x14), (0x0205, 0x15)] (start [(15, 0x0200)])) 0xE0734 (fun t => t.reg 2 == 0x1312 && t.reg 11 == 0x1514
      && t.reg 15 == 0x0206 && t.sa == 0x1110 && t.pc == 0x0101) = true := by
  decide

/-- `ldsh (R9)+,{R9}`: vector T32. -/
theorem test_ldshPostIncSel_T32 : refusedAfter (start [(9, 0x0200)]) 0xC8104 .addressRegisterOverlap = true := by
      decide

/-- `stbt R1,0x3FF`: vector T19. -/
theorem test_stbtDirect_T19 : after (start [(1, 0x12AB)]) 0x7FE18 (fun t => t.readByte 0x03FF == 0xAB && t.pc ==
      0x0101) = true := by
  decide

/-- `stbt R1,(R8)+`: vector T23. -/
theorem test_stbtPostInc_T23 : after (start [(1, 0x0041), (8, 0x0300)]) 0xA0018 (fun t => t.reg 8 == 0x0301 &&
      t.readByte 0x0300 == 0x41 && t.pc == 0x0101) = true := by
  decide

/-- `stbt R1,(R9)*`: vector T27. -/
theorem test_stbtPostUpd_T27 : after ({ start [(1, 0x00AA), (9, 0x0200)] with u0 := 0x010 }) 0xB0118 (fun t =>
      t.reg 9 == 0x0210 && t.readByte 0x0200 == 0xAA && t.pc == 0x0101) = true := by
  decide

/-- `stbt {R0,R1,RD},-(R8)`: vector T31. -/
theorem test_stbtPreDecSel_T31 : after (start [(0, 0x00A0), (1, 0x00A1), (8, 0x0203), (13, 0x00AD)]) 0xE0858 (fun t
      => t.reg 8 == 0x0200 && t.readByte 0x0200 == 0xA0 && t.readByte 0x0201 == 0xA1 && t.readByte 0x0202 == 0xAD && t.pc
      == 0x0101) = true := by
  decide

/-- `stsh R1,0x201`: vector T21. -/
theorem test_stshDirect_T21 : after (start [(1, 0x12AB)]) 0x0241C (fun t => t.readByte 0x0200 == 0xAB && t.readByte
      0x0201 == 0x12 && t.pc == 0x0101) = true := by
  decide

/-- `stsh R1,(R2,R9)`: vector T26. -/
theorem test_stshIndex_T26 : after (start [(1, 0x5566), (2, 0x0004), (9, 0x0200)]) 0x8211C (fun t => t.readByte
      0x0208 == 0x66 && t.readByte 0x0209 == 0x55 && t.pc == 0x0101) = true := by
  decide

/-- `stsh R8,(R8)+`: vector T24. -/
theorem test_stshPostInc_T24 : after (start [(8, 0x0300)]) 0xA008C (fun t => t.reg 8 == 0x0302 && t.readByte 0x0300
      == 0x00 && t.readByte 0x0301 == 0x03 && t.pc == 0x0101) = true := by
  decide

/-- `stsh R1,-(RF)`: vector T22. -/
theorem test_stshPreDec_T22 : after (start [(1, 0xCAFE), (15, 0x0400)]) 0xA0F1C (fun t => t.reg 15 == 0x03FE &&
      t.readByte 0x03FE == 0xFE && t.readByte 0x03FF == 0xCA && t.pc == 0x0101) = true := by
  decide

/-- `stsh R8,-(R8)`: vector T25. -/
theorem test_stshPreDec_T25 : refusedAfter (start [(8, 0x0300)]) 0xA088C .addressRegisterOverlap = true := by decide

/-- `stsh {SA,R2,RB},-(RF)`: vector T30. -/
theorem test_stshPreDecSel_T30 : after ({ start [(2, 0x2222), (11, 0xBBBB), (15, 0x0206)] with sa := 0x5A5A })
      0xF0F1C (fun t => t.reg 15 == 0x0200 && t.readByte 0x0200 == 0x5A && t.readByte 0x0201 == 0x5A && t.readByte 0x0202
      == 0x22 && t.readByte 0x0203 == 0x22 && t.readByte 0x0204 == 0xBB && t.readByte 0x0205 == 0xBB && t.pc == 0x0101) =
      true := by
  decide

/-- `jpsr 0x0000`: vector F3. -/
theorem test_jpsrAbs_F3 : after ({ start [] with pc := 0xFFFF }) 0x80001 (fun t => t.sa == 0x0000 && t.pc ==
      0x0000) = true := by
  decide

/-- `bral -3`: vector F8. -/
theorem test_bral_F8 : after (start []) 0xFFDF1 (fun t => t.pc == 0x00FD) = true := by
  decide

/-- `bral 8191`: vector F10. -/
theorem test_bral_F10 : after (start []) 0xFFF71 (fun t => t.pc == 0x20FF) = true := by
  decide

/-- `brnc 5,0`: vector F15. -/
theorem test_brnc_F15 : after ({ start [] with cc := nzoc 0b1000 }) 0xC0509 (fun t => t.cc == nzoc 0b1000 && t.pc
      == 0x0105) = true := by
  decide

/-- `brnc 5,1`: vector F16. -/
theorem test_brnc_F16 : after ({ start [] with cc := nzoc 0b1001 }) 0xC0589 (fun t => t.cc == nzoc 0b1001 && t.pc
      == 0x0101) = true := by
  decide

/-- `brcr 5,0`: vector F17. -/
theorem test_brcr_F17 : after ({ start [] with cc := nzoc 0b1001 }) 0xC0519 (fun t => t.cc == nzoc 0b1001 && t.pc
      == 0x0105) = true := by
  decide

/-- `brcr 5,1`: vector F18. -/
theorem test_brcr_F18 : after ({ start [] with cc := nzoc 0b1000 }) 0xC0599 (fun t => t.cc == nzoc 0b1000 && t.pc
      == 0x0101) = true := by
  decide

/-- `brno 5,0`: vector F19. -/
theorem test_brno_F19 : after ({ start [] with cc := nzoc 0b1000 }) 0xC0529 (fun t => t.cc == nzoc 0b1000 && t.pc
      == 0x0105) = true := by
  decide

/-- `brno 5,1`: vector F20. -/
theorem test_brno_F20 : after ({ start [] with cc := nzoc 0b1010 }) 0xC05A9 (fun t => t.cc == nzoc 0b1010 && t.pc
      == 0x0101) = true := by
  decide

/-- `brof 5,0`: vector F21. -/
theorem test_brof_F21 : after ({ start [] with cc := nzoc 0b1010 }) 0xC0539 (fun t => t.cc == nzoc 0b1010 && t.pc
      == 0x0105) = true := by
  decide

/-- `brof 5,1`: vector F22. -/
theorem test_brof_F22 : after ({ start [] with cc := nzoc 0b1000 }) 0xC05B9 (fun t => t.cc == nzoc 0b1000 && t.pc
      == 0x0101) = true := by
  decide

/-- `brnz 5,0`: vector F23. -/
theorem test_brnz_F23 : after ({ start [] with cc := nzoc 0b1000 }) 0xC0549 (fun t => t.cc == nzoc 0b1000 && t.pc
      == 0x0105) = true := by
  decide

/-- `brnz 5,1`: vector F24. -/
theorem test_brnz_F24 : after ({ start [] with cc := nzoc 0b1100 }) 0xC05C9 (fun t => t.cc == nzoc 0b1100 && t.pc
      == 0x0101) = true := by
  decide

/-- `brzr 5,0`: vector F25. -/
theorem test_brzr_F25 : after ({ start [] with cc := nzoc 0b1100 }) 0xC0559 (fun t => t.cc == nzoc 0b1100 && t.pc
      == 0x0105) = true := by
  decide

/-- `brzr 5,1`: vector F26. -/
theorem test_brzr_F26 : after ({ start [] with cc := nzoc 0b1000 }) 0xC05D9 (fun t => t.cc == nzoc 0b1000 && t.pc
      == 0x0101) = true := by
  decide

/-- `brps 5,0`: vector F27. -/
theorem test_brps_F27 : after ({ start [] with cc := nzoc 0b0100 }) 0xC0569 (fun t => t.cc == nzoc 0b0100 && t.pc
      == 0x0105) = true := by
  decide

/-- `brps 5,1`: vector F28. -/
theorem test_brps_F28 : after ({ start [] with cc := nzoc 0b1100 }) 0xC05E9 (fun t => t.cc == nzoc 0b1100 && t.pc
      == 0x0101) = true := by
  decide

/-- `brng 5,0`: vector F29. -/
theorem test_brng_F29 : after ({ start [] with cc := nzoc 0b1100 }) 0xC0579 (fun t => t.cc == nzoc 0b1100 && t.pc
      == 0x0105) = true := by
  decide

/-- `brng 5,1`: vector F30. -/
theorem test_brng_F30 : after ({ start [] with cc := nzoc 0b0100 }) 0xC05F9 (fun t => t.cc == nzoc 0b0100 && t.pc
      == 0x0101) = true := by
  decide

/-- `brls 5,0`: vector F31. -/
theorem test_brls_F31 : after ({ start [] with cc := nzoc 0b1001 }) 0xC050D (fun t => t.cc == nzoc 0b1001 && t.pc
      == 0x0105) = true := by
  decide

/-- `brls 5,1`: vector F32. -/
theorem test_brls_F32 : after ({ start [] with cc := nzoc 0b1000 }) 0xC058D (fun t => t.cc == nzoc 0b1000 && t.pc
      == 0x0101) = true := by
  decide

/-- `brhi 5,0`: vector F33. -/
theorem test_brhi_F33 : after ({ start [] with cc := nzoc 0b1000 }) 0xC051D (fun t => t.cc == nzoc 0b1000 && t.pc
      == 0x0105) = true := by
  decide

/-- `brhi 5,1`: vector F34. -/
theorem test_brhi_F34 : after ({ start [] with cc := nzoc 0b1001 }) 0xC059D (fun t => t.cc == nzoc 0b1001 && t.pc
      == 0x0101) = true := by
  decide

/-- `brge 5,0`: vector F37. -/
theorem test_brge_F37 : after ({ start [] with cc := nzoc 0b1010 }) 0xC053D (fun t => t.cc == nzoc 0b1010 && t.pc
      == 0x0105) = true := by
  decide

/-- `brge 5,1`: vector F38. -/
theorem test_brge_F38 : after ({ start [] with cc := nzoc 0b1000 }) 0xC05BD (fun t => t.cc == nzoc 0b1000 && t.pc
      == 0x0101) = true := by
  decide

/-- `brgt 5,0`: vector F41. -/
theorem test_brgt_F41 : after ({ start [] with cc := nzoc 0b1010 }) 0xC055D (fun t => t.cc == nzoc 0b1010 && t.pc
      == 0x0105) = true := by
  decide

/-- `brgt 5,1`: vector F42. -/
theorem test_brgt_F42 : after ({ start [] with cc := nzoc 0b1000 }) 0xC05DD (fun t => t.cc == nzoc 0b1000 && t.pc
      == 0x0101) = true := by
  decide

/-- `brlo 5,0`: vector F35. -/
theorem test_brlo_F35 : after ({ start [] with cc := nzoc 0b1000 }) 0xC056D (fun t => t.cc == nzoc 0b1000 && t.pc
      == 0x0105) = true := by
  decide

/-- `brlo 5,1`: vector F36. -/
theorem test_brlo_F36 : after ({ start [] with cc := nzoc 0b1010 }) 0xC05ED (fun t => t.cc == nzoc 0b1010 && t.pc
      == 0x0101) = true := by
  decide

/-- `brle 5,0`: vector F39. -/
theorem test_brle_F39 : after ({ start [] with cc := nzoc 0b1000 }) 0xC054D (fun t => t.cc == nzoc 0b1000 && t.pc
      == 0x0105) = true := by
  decide

/-- `brle 5,1`: vector F40. -/
theorem test_brle_F40 : after ({ start [] with cc := nzoc 0b1010 }) 0xC05CD (fun t => t.cc == nzoc 0b1010 && t.pc
      == 0x0101) = true := by
  decide

/-- `brlc -2`: vector F12. -/
theorem test_brlc_F12 : after ({ start [] with cc := nzoc 0b1111, lc := 0x002 }) 0xFFE7D (fun t => t.lc == 0x001 &&
      t.cc == nzoc 0b1111 && t.pc == 0x00FE) = true := by
  decide

/-- `brlc -2`: vector F13. -/
theorem test_brlc_F13 : after ({ start [] with lc := 0x001 }) 0xFFE7D (fun t => t.lc == 0x000 && t.pc == 0x0101) =
      true := by
  decide

/-- `jump`: vector F1. -/
theorem test_jump_F1 : after ({ start [] with ta := 0x4321 }) 0xC0005 (fun t => t.pc == 0x4321) = true := by
  decide

/-- `jpsr`: vector F4. -/
theorem test_jpsr_F4 : after ({ start [] with ta := 0x2000 }) 0xC0015 (fun t => t.sa == 0x0101 && t.pc == 0x2000) =
      true := by
  decide

/-- `rtsr`: vector F5. -/
theorem test_rtsr_F5 : after ({ start [] with sa := 0x0101 }) 0xC0025 (fun t => t.pc == 0x0101) = true := by
  decide

/-- `rtir`: vector F6. -/
theorem test_rtir_F6 : after ({ start [] with ia := 0x0040, ccs := nzoc 0b1010, csIr := true, csIe := true, csIs :=
      true }) 0xC0035 (fun t => !t.csIr && t.csIe && t.csIs && t.cc == nzoc 0b1010 && t.pc == 0x0040) = true := by
  decide

/-- `rtir`: vector F7. -/
theorem test_rtir_F7 : refusedAfter ({ start [] with ia := 0x0040, csIr := false }) 0xC0035 .returnOutsideInterrupt
      = true := by decide

/-- `stop`: vector D3. -/
theorem test_stop_D3 : after (start []) 0xC0045 (fun t => t.run == .stopped && t.pc == 0x0101) = true := by
  decide

/-- `svpc`: vector D1. -/
theorem test_svpc_D1 : after (start []) 0xC0065 (fun t => t.dbo == 0x0100 && t.pc == 0x0101) = true := by
  decide

/-- `rspc`: vector D2. -/
theorem test_rspc_D2 : after ({ start [] with dbi := some 0xF4000 }) 0xC0075 (fun t => t.pc == 0x4000) = true := by
  decide

/-- Fetched by a program with no debug module attached, `mfdp` and `rspc` are refused: R429. -/
theorem test_debugInput_undriven :
    exec (.mfdp 2) (start []) = .refused .debugInputUndriven ∧ exec .rspc (start []) = .refused .debugInputUndriven :=
  ⟨rfl, rfl⟩

/-- `stie`: vector F45. -/
theorem test_stie_F45 : after ({ start [] with csIe := false, csIs := false }) 0xC0085 (fun t => t.csIe && !t.csIs
      && t.pc == 0x0101) = true := by
  decide

/-- `clie`: vector F46. -/
theorem test_clie_F46 : after ({ start [] with csIe := true, csIs := false }) 0xC0095 (fun t => !t.csIe && !t.csIs
      && t.pc == 0x0101) = true := by
  decide

/-- `rsie`: vector F49. -/
theorem test_rsie_F49 : after ({ start [] with csIe := false, csIs := true }) 0xC00A5 (fun t => t.csIe && t.csIs &&
      t.pc == 0x0101) = true := by
  decide

/-- `scie`: vector F47. -/
theorem test_scie_F47 : after ({ start [] with csIe := true, csIs := false }) 0xC00B5 (fun t => !t.csIe && t.csIs
      && t.pc == 0x0101) = true := by
  decide

/-! Steps of the forms that 95_test_vectors.md has no vector for, by hand from the rules. -/

/-- 257 * 255 = 65535. -/
theorem test_mlcu : Result.meets (exec (.mlcu 0xFF 1) (start [(1, 257)])) (fun t => t.reg 1 == 0xFFFF) = true := by
  decide

/-- Downward R2 stands before R0: R2 takes the byte below An, R0 the next one down (R182). -/
theorem test_ldbtPreDecSel :
    Result.meets (exec (.ldbtPreDecSel 0 0b1100000000) (filled [(0x0202, 0x12), (0x0203, 0x13)] (start [(8, 0x0204)])))
      (fun t => t.reg 2 == 0x0013 && t.reg 0 == 0x0012 && t.reg 8 == 0x0202) = true := by decide

/-- Downward RB stands first and SA last (R182). -/
theorem test_ldshPreDecSel :
    Result.meets (exec (.ldshPreDecSel 0 0b1000000001)
        (filled [(0x0200, 0x10), (0x0201, 0x11), (0x0202, 0x12), (0x0203, 0x13)] (start [(8, 0x0204)])))
      (fun t => t.reg 11 == 0x1312 && t.sa == 0x1110 && t.reg 8 == 0x0200) = true := by decide

theorem test_stbtOffset :
    Result.meets (exec (.stbtOffset 1 0xFF 1) (start [(1, 0x12AB), (9, 0x0200)]))
      (fun t => t.readByte 0x01FF == 0xAB && t.reg 9 == 0x0200) = true := by decide

theorem test_stbtIndex :
    Result.meets (exec (.stbtIndex 1 2 1) (start [(1, 0x12AB), (2, 3), (9, 0x0200)]))
      (fun t => t.readByte 0x0203 == 0xAB) = true := by decide

/-- Addresses are modulo 2^16 (R92). -/
theorem test_stbtPreDec :
    Result.meets (exec (.stbtPreDec 1 1) (start [(1, 0x12AB), (9, 0)]))
      (fun t => t.readByte 0xFFFF == 0xAB && t.reg 9 == 0xFFFF) = true := by decide

theorem test_stbtPostIncSel :
    Result.meets (exec (.stbtPostIncSel 0b1000000001 0) (start [(0, 0x12AB), (13, 0x34CD), (8, 0x0200)]))
      (fun t => t.readByte 0x0200 == 0xAB && t.readByte 0x0201 == 0xCD && t.reg 8 == 0x0202) = true := by decide

theorem test_stshOffset :
    Result.meets (exec (.stshOffset 1 4 1) (start [(1, 0x1234), (9, 0x0200)]))
      (fun t => t.readByte 0x0204 == 0x34 && t.readByte 0x0205 == 0x12) = true := by decide

theorem test_stshPostUpd :
    Result.meets (exec (.stshPostUpd 1 1) { start [(1, 0x1234), (9, 0x0200)] with u0 := 0x3FE })
      (fun t => t.readByte 0x0200 == 0x34 && t.readByte 0x0201 == 0x12 && t.reg 9 == 0x01FE) = true := by decide

theorem test_stshPostIncSel :
    Result.meets (exec (.stshPostIncSel 0b1000000001 1) { start [(11, 0xBBAA), (9, 0x0300)] with sa := 0x5A4B })
      (fun t => t.dataAt .short 0x0300 == 0x5A4B && t.dataAt .short 0x0302 == 0xBBAA && t.reg 9 == 0x0304) = true := by
  decide


/-! ## Witnesses: for each statement with hypotheses, states and operands that meet them -/

/-- DecodeInvertsEncode, with the parameter unset and set, and a well-formed instruction. -/
theorem witness_DecodeInvertsEncode :
    encodeWith none (.addtReg 1 2 3) = some 0x1123A#20 ∧
    encodeWith (some .fn010) (.mlcu 0xB3 0xD) = some 0b11100111001011010010#20 ∧
    Instr.wellFormed (.ldshPostIncSel 0 0b1111111111) = true := by decide

theorem witness_EncodeInvertsDecode :
    decodeWith none 0x1123A#20 = .ok (.addtReg 1 2 3) ∧
    decodeWith (some .fn100) 0b11100111010011010010#20 = .ok (.mlcu 0xB3 0xD) := by decide

/-- ReservedClassesDecodeToNothing: a word of each class. -/
theorem witness_ReservedClasses :
    (0x00003#20).extractLsb' 0 2 = 0b11#2 ∧
    ((0x80800#20).extractLsb' 16 4 = 0b1000#4 ∧ (0x80800#20).getLsbD 11 = true) ∧
    (0x90000#20).extractLsb' 16 4 = 0b1001#4 ∧
    ((0xA1000#20).extractLsb' 16 4 = 0b1010#4 ∧ (0xA1000#20).extractLsb' 12 4 ≠ 0#4) ∧
    ((0xB0800#20).extractLsb' 16 4 = 0b1011#4 ∧ (0xB0800#20).getLsbD 11 = true) ∧
    ((0xC0055#20).extractLsb' 0 4 = 0b0101#4 ∧ (0xC0055#20).extractLsb' 4 4 ∈ [0b0101#4, 0b1100#4]) ∧
    ((0xC0105#20).extractLsb' 0 4 = 0b0101#4 ∧ (0xC0105#20).extractLsb' 8 10 ≠ 0#10) ∧
    (0xC002D#20).extractLsb' 0 7 = 0b0101101#7 ∧ (0xC00FD#20).extractLsb' 0 8 = 0b11111101#8 ∧
    ((0x4000A#20).extractLsb' 0 4 = 0b1010#4 ∧ (0x4000A#20).extractLsb' 16 4 = 0b0100#4) ∧
    ((0x8010A#20).extractLsb' 0 4 = 0b1010#4 ∧ (0x8010A#20).getLsbD 19 = true ∧ (0x8010A#20).getLsbD 8 = true) ∧
    ((0x1000E#20).extractLsb' 0 4 = 0b1110#4 ∧ (0x1000E#20).extractLsb' 16 4 = 0b0001#4) ∧
    ((0x4100E#20).extractLsb' 0 4 = 0b1110#4 ∧ (0x4100E#20).extractLsb' 12 4 = 0b0001#4) ∧
    ((0x5F00E#20).extractLsb' 16 4 = 0b0101#4 ∧ (0x5F00E#20).extractLsb' 12 4 = 0b1111#4) ∧
    ((0x4A01E#20).extractLsb' 12 4 = 0b1010#4 ∧ (0x4A01E#20).extractLsb' 4 4 ≠ 0#4) ∧
    ((0x5101E#20).extractLsb' 12 4 = 0b0001#4 ∧ (0x5101E#20).extractLsb' 4 4 ≠ 0#4) ∧
    ((0x5010E#20).extractLsb' 12 4 = 0b0000#4 ∧ (0x5010E#20).extractLsb' 8 4 ≠ 0#4) ∧
    ((0x8010E#20).extractLsb' 0 4 = 0b1110#4 ∧ (0x8010E#20).getLsbD 19 = true ∧ (0x8010E#20).getLsbD 8 = true) ∧
    ((0x80402#20).extractLsb' 0 4 = 0b0010#4 ∧ (0x80402#20).extractLsb' 8 3 = 0b100#3) ∧
    ((0x50016#20).extractLsb' 0 4 = 0b0110#4 ∧ (0x50016#20).extractLsb' 4 4 ≠ 0#4) := by decide

/-- The same words meet the other conditions of their class. -/
theorem witness_ReservedClasses_rest :
    [0x80800#20, 0x90000#20, 0xA1000#20, 0xB0800#20].all (fun w => w.extractLsb' 0 2 == 0b00#2) = true ∧
    [0xC0055#20, 0xC0105#20, 0xC002D#20, 0xC00FD#20].all (fun w => w.extractLsb' 18 2 == 0b11#2) = true ∧
    [0x4100E#20, 0x4A01E#20].all (fun w => w.extractLsb' 0 4 == 0b1110#4 && w.extractLsb' 16 4 == 0b0100#4) = true ∧
    [0x5F00E#20, 0x5101E#20, 0x5010E#20].all (fun w => w.extractLsb' 0 4 == 0b1110#4 && w.extractLsb' 16 4 == 0b0101#4) = true ∧
    (0xB0800#20).extractLsb' 16 4 = 0b1011#4 ∧ (0x80402#20).getLsbD 19 = true ∧
    (0x50016#20).extractLsb' 16 4 = 0b0101#4 := by decide

/-- A running state over the word of `stie`, one over no word, one over a reserved word, and a stopped one. -/
def placed (w : Opcode) : State := (start []).placeWord w

theorem witness_StepRunsDecodedInstruction :
    (placed 0xC0085).run = .running ∧ Memory.find (placed 0xC0085).pc.toNat (placed 0xC0085).imem = some 0xC0085#20 ∧
    decode 0xC0085#20 = .ok .stie ∧ (placed 0xC0085).inputs = [] ∧
    ({ placed 0xC0085 with inputs := [.step] } : State).inputs = .step :: [] := by decide

theorem witness_StepWithoutInstruction :
    ((start []).inputs = [] ∧ (start []).run = .running ∧ Memory.find (start []).pc.toNat (start []).imem = none) ∧
    ((placed 3).inputs = [] ∧ (placed 3).run = .running ∧
      Memory.find (placed 3).pc.toNat (placed 3).imem = some 3#20 ∧ decode 3#20 = .error .low11) ∧
    ({ start [] with run := .stopped } : State).inputs = [] ∧
    ({ start [] with run := .stopped, inputs := [.step] } : State).inputs = .step :: [] ∧
    ({ start [] with run := .stopped, inputs := [.step] } : State).run = .stopped := by decide

theorem witness_WellFormedInstructionsComplete :
    Instr.wellFormed (.ldbtPostIncSel 0 1) = true ∧ (Instr.wellFormed .rtir = true ∧ State.reset.csIr = true) ∧
    Instr.wellFormed .rspc = true ∧ Instr.wellFormed (.mfdp 15) = true ∧
    ({ start [] with dbi := some 0 } : State).dbi = some 0#20 := by decide

theorem test_mlcu_completes : ∃ t, exec (.mlcu 0xFF 1) (start []) = .next t := ⟨_, rfl⟩

/-- OtherInstructionsAdvancePc, at both ends of the address space. -/
theorem witness_OtherInstructionsAdvancePc :
    (∃ t, exec .stie { start [] with pc := 0xFFFF } = .next t ∧ t.pc = 0) ∧
    (∃ t, exec .stie { start [] with pc := 0 } = .next t ∧ t.pc = 1) ∧ ¬ SetsPc .stie ∧ Instr.stie ≠ .rspc :=
  ⟨⟨_, rfl, rfl⟩, ⟨_, rfl, rfl⟩, by simp [SetsPc], by decide⟩

theorem witness_TwoWordAdditionAndSubtraction :
    (1 : RegNum) ≠ 2 ∧ (1 : RegNum) ≠ 3 ∧ (1 : RegNum) ≠ 4 ∧
    (0x80000001 : BitVec 32) = (start [(3, 0x8000), (5, 1)]).reg 3 ++ (start [(3, 0x8000), (5, 1)]).reg 5 ∧
    (0x00000001 : BitVec 32) = (start [(6, 1)]).reg 2 ++ (start [(6, 1)]).reg 6 := by decide

/-- UnaryArithmeticWritesRd: each case of `absl`, `clzr` and `sxsh`, at the highest and the lowest bit. -/
theorem witness_UnaryArithmeticWritesRd :
    ((start [(1, 0x8000)]).reg 1).getLsbD 15 = true ∧ ((start [(1, 0x7FFF)]).reg 1).getLsbD 15 = false ∧
    (start [(1, 0)]).reg 1 = 0 ∧ ((start [(1, 0xFFFF)]).reg 1).getLsbD 15 = true ∧
    ((start [(1, 1)]).reg 1).getLsbD 0 = true ∧ (∀ j : Fin 16, 0 < j.val → ((start [(1, 1)]).reg 1).getLsbD j.val = false) := by
  decide

/-- ShiftsAndRotates, BitClearSetToggle, BitTestWritesFlagsOnly: the count or index at 0 and 15, high bits ignored. -/
theorem witness_registerCounts :
    0 = ((start [(3, 0xFFF0)]).reg 3).toNat % 16 ∧ 15 = ((start [(3, 0x000F)]).reg 3).toNat % 16 := by decide

theorem witness_SpecialRegisters :
    (3 : SRegNum) ∉ [0#4, 1#4, 2#4, 4#4, 12#4, 13#4, 14#4, 15#4] ∧
    (11 : SRegNum) ∉ [0#4, 1#4, 2#4, 4#4, 12#4, 13#4, 14#4, 15#4] ∧
    (0xFFFF : Word) = (start [(1, 0xFFFF)]).reg 1 ∧ (0x03FF : Word) = (0x3FF#10).setWidth 16 := by decide

theorem witness_DebugInputReads :
    ({ start [] with dbi := some 0xF1234 } : State).dbi = some 0xF1234#20 ∧ (start []).dbi = none ∧
    ({ start [] with inputs := [.driveDbi (some 0xF1234)] } : State).inputs = .driveDbi (some 0xF1234#20) :: [] ∧
    Result.meets (step { start [] with inputs := [.driveDbi (some 0xF1234)] })
      (fun t => t.dbi == some 0xF1234 && t.pc == 0x0100) = true := by decide

/-- SingleRegisterLoads and SingleRegisterStores: An = R8 and An = RF, the transferred register another one. -/
theorem witness_SingleRegisterTransfers :
    (0x0200 : Word) = (start [(8, 0x0200)]).reg (1#1 ++ 0#3) ∧ (7 : RegNum) ≠ 1#1 ++ 0#3 ∧
    (0xFFFF : Word) = (start [(15, 0xFFFF)]).reg (1#1 ++ 7#3) ∧ (8 : RegNum) ≠ 1#1 ++ 7#3 := by decide

/-- Whether `l` is the selection by `rgs` from `order`, as a check. -/
def selectsCheck (order : List SelReg) (rgs : BitVec 10) (l : List SelReg) : Bool :=
  l.isSublist order && (List.range order.length).all fun k =>
    match order[k]? with
    | some r => decide (r ∈ l) == rgs.getLsbD k
    | none => true

theorem selects_of_check {order : List SelReg} {rgs : BitVec 10} {l : List SelReg}
    (h : selectsCheck order rgs l = true) : Selects order rgs l := by
  simp only [selectsCheck, Bool.and_eq_true, List.all_eq_true, List.mem_range] at h
  refine ⟨List.isSublist_iff_sublist.mp h.1, fun k r hr => ?_⟩
  have hk := h.2 k (List.getElem?_eq_some_iff.mp hr).1
  rw [hr] at hk
  rw [← decide_eq_true_iff (p := r ∈ l), eq_of_beq hk]

/-- SelectionLoads and SelectionStores: one register and all ten, both sizes, both directions, An = R8. -/
theorem witness_Selections :
    Selects (ascending .byte) 0b0000000001 [.gpr 0] ∧ Selects (ascending .byte) 0b1111111111 (ascending .byte) ∧
    Selects (ascending .short) 0b1000000000 [.gpr 11] ∧ Selects (ascending .short) 0b1111111111 (ascending .short) ∧
    Selects (descending .byte) 0b0000000001 [.gpr 13] ∧ Selects (descending .byte) 0b1111111111 (descending .byte) ∧
    Selects (descending .short) 0b1000000000 [.sa] ∧ Selects (descending .short) 0b1111111111 (descending .short) ∧
    SelReg.gpr (1#1 ++ 0#3) ∉ ascending .byte ∧ SelReg.gpr (1#1 ++ 0#3) ∉ ascending .short ∧
    SelReg.gpr (1#1 ++ 0#3) ∉ descending .byte ∧ SelReg.gpr (1#1 ++ 0#3) ∉ descending .short ∧
    ascending .byte ≠ [] ∧ descending .short ≠ [] ∧ (0x0200 : Word) = (start [(8, 0x0200)]).reg (1#1 ++ 0#3) := by
  refine ⟨?_, ?_, ?_, ?_, ?_, ?_, ?_, ?_, ?_⟩
  · exact selects_of_check (by decide)
  · exact selects_of_check (by decide)
  · exact selects_of_check (by decide)
  · exact selects_of_check (by decide)
  · exact selects_of_check (by decide)
  · exact selects_of_check (by decide)
  · exact selects_of_check (by decide)
  · exact selects_of_check (by decide)
  · decide

/-- OverlappingTransfersAreRefused: RC in a byte selection with An = RC, R9 in a short one with An = R9. -/
theorem witness_OverlappingTransfers :
    (12 : RegNum) = 1#1 ++ 4#3 ∧ (9 : RegNum) = 1#1 ++ 1#3 ∧
    Selects (ascending .byte) 0b0100000000 [.gpr 12] ∧ Selects (ascending .short) 0b0010000000 [.gpr 9] ∧
    Selects (descending .byte) 0b0000000010 [.gpr 12] ∧ Selects (descending .short) 0b0000000100 [.gpr 9] := by
  refine ⟨by decide, by decide, ?_, ?_, ?_, ?_⟩
  · exact selects_of_check (by decide)
  · exact selects_of_check (by decide)
  · exact selects_of_check (by decide)
  · exact selects_of_check (by decide)

/-- A selection is accessed in its order, the latest access first in the record: {SA, R2} upward (R181). -/
theorem test_selection_bus_order :
    Result.meets (exec (.stshPostIncSel 0b0000000011 0) { start [(2, 0x2222), (8, 0x0200)] with sa := 0x1111 })
      (fun t => t.outputs == [.write .short 0x0202 0x2222, .write .short 0x0200 0x1111]) = true := by decide

/-- A map with 256 bytes of memory and a device of 16 addresses at 0x0200. -/
def smallMap : Config.Regions := [⟨0, 0x0100, .memory⟩, ⟨0x0200, 0x0010, .device⟩]

/-- RegionMapsBoundAccesses: the last short of memory, the first byte in no region, the ends of the device, and a short
that is half in a device; the second access of a selection; a fetch inside and outside. -/
theorem witness_RegionMaps :
    InMemory smallMap .short 0x00FF ∧ BarredBy smallMap .byte 0x0100 (.unpopulatedData 0x0100) ∧
    BarredBy smallMap .byte 0x0200 (.deviceAccess 0x0200) ∧ BarredBy smallMap .byte 0x020F (.deviceAccess 0x020F) ∧
    BarredBy smallMap .short 0x0210 (.unpopulatedData 0x0210) ∧ (1 : RegNum) ≠ 1#1 ++ 0#3 ∧
    Selects (ascending .short) 0b0000000011 [.sa, .gpr 2] ∧ Selects (descending .short) 0b1100000000 [.gpr 2, .sa] ∧
    Memory.kindAt smallMap 0x00FF = some .memory ∧ Memory.kindAt smallMap 0x0100 ≠ some .memory := by
  refine ⟨?_, .inl ⟨⟨0x0100, ?_⟩, rfl⟩, .inr ⟨?_, ⟨0x0200, ?_⟩, rfl⟩, .inr ⟨?_, ⟨0x020F, ?_⟩, rfl⟩,
    .inl ⟨⟨0x0210, ?_⟩, rfl⟩, by decide, selects_of_check (by decide), selects_of_check (by decide), by decide,
    by decide⟩
  · simp only [InMemory, accessBytes, shortBytes, List.mem_cons, Part.byte.injEq, List.not_mem_nil, or_false]
    rintro b (rfl | rfl) <;> decide
  · decide
  · rintro ⟨b, hb, h⟩
    obtain rfl : b = 0x0200 := by simpa [accessBytes] using hb
    exact absurd h (by decide)
  · decide
  · rintro ⟨b, hb, h⟩
    obtain rfl : b = 0x020F := by simpa [accessBytes] using hb
    exact absurd h (by decide)
  · decide
  · decide

/-- A load and a selection under that map: refused at the first access that is barred. -/
theorem test_regions_refuse :
    (match (start []).loadTo smallMap .short 0x0100 1 with
      | .refused q => q == .unpopulatedData 0x0100
      | _ => false) = true ∧
    (match (start [(8, 0x00FE)]).storeSelUp smallMap .short 0 0b0000000011 with
      | .refused q => q == .unpopulatedData 0x0100
      | _ => false) = true ∧
    Result.meets ((start [(8, 0x0100)]).loadSelDown smallMap .byte 0 0b0000000101) (fun t => t.reg 8 == 0x00FE) = true := by
  decide

/-- PushThenPopRestores: {RB, SA} pushed with An = R8, and the state right after the push. -/
theorem witness_PushThenPopRestores :
    [SelReg.gpr 11, .sa] ≠ [] ∧ SelReg.gpr (1#1 ++ 0#3) ∉ [SelReg.gpr 11, .sa] ∧
    Selects (descending .short) 0b1000000001 [.gpr 11, .sa] ∧
    Selects (ascending .short) 0b1000000001 [SelReg.gpr 11, .sa].reverse ∧
    ∃ t u : State, exec (.stshPreDecSel 0b1000000001 0) (start [(8, 0x0400)]) = .next t ∧
      u.reg (1#1 ++ 0#3) = t.reg (1#1 ++ 0#3) ∧ ∀ a : Word, u.readByte a = t.readByte a := by
  refine ⟨by decide, by decide, ?_, ?_, _, _, rfl, rfl, fun _ => rfl⟩
  · exact selects_of_check (by decide)
  · exact selects_of_check (by decide)

/-- MixedSizeAccesses: the lowest and the highest even direct address. -/
theorem witness_MixedSizeAccesses : (0#11).getLsbD 0 = false ∧ (0x7FE#11).getLsbD 0 = false := by decide

theorem witness_ReturnFromInterrupt :
    (start []).csIr = true ∧ ({ start [] with csIr := false } : State).csIr = false := by decide

/-- BranchAlwaysAndLoopBranch: LC counts 0 to 0x3FF and branches, and 1 to 0 and does not. -/
theorem witness_LoopBranch :
    (∃ t, exec (.brlc 5) { start [] with lc := 0 } = .next t ∧ t.lc = 0x3FF ∧ t.pc = 0x0105) ∧
    ∃ t, exec (.brlc 5) { start [] with lc := 1 } = .next t ∧ t.lc = 0 ∧ t.pc = 0x0101 :=
  ⟨⟨_, rfl, by decide, by decide⟩, _, rfl, by decide, by decide⟩

theorem witness_CriticalSection :
    ∃ t u v : State, exec .scie { start [] with csIe := true } = .next t ∧ u.csIe = false ∧ u.csIs = t.csIs ∧
      Instr.clie ∉ [Instr.stie, .rsie, .scie] ∧ exec .clie u = .next v := by
  refine ⟨_, { start [] with csIe := false, csIs := true }, _, rfl, rfl, rfl, by decide, rfl⟩

/-- A stopped state to which the host offers the injection of `w`. -/
def injecting (w : Opcode) (data : Option (BitVec 20)) : State :=
  { start [] with run := .stopped, inputs := [.inject w data] }

/-- InjectionHoldsPc: `stie`, a load that is refused, `rspc` with its data and without, `rtsr` and `stop`, a reserved word,
and an injection while running. -/
theorem witness_InjectionHoldsPc :
    (injecting 0xC0085 none).inputs = .inject 0xC0085 none :: [] ∧ decode 0xC0085#20 = .ok .stie ∧
    (∃ t, exec .stie { injecting 0xC0085 none with inputs := [], dbi := none } = .next t) ∧
    decode 0xC0075#20 = .ok .rspc ∧ decode 0xC0025#20 = .ok .rtsr ∧ SetsPc .rtsr ∧ decode 0xC0045#20 = .ok .stop ∧
    (injecting 0xC0085 none).run = .stopped ∧
    ({ injecting 0xC0085 none with run := .running } : State).run = .running ∧
    decode 3#20 = .error .low11 ∧ (injecting 3 none).inputs = .inject 3 none :: [] ∧
    (injecting 0xC0075 (some 0x4000)).inputs = .inject 0xC0075 (some 0x4000) :: [] ∧
    ∃ i q, decode 0xA0080#20 = .ok i ∧ ¬ SetsPc i ∧ i ≠ .stop ∧ i ≠ .rspc ∧
      exec i { injecting 0xA0080 none with inputs := [], dbi := none } = .refused q := by
  refine ⟨rfl, by decide, ⟨_, rfl⟩, by decide, by decide, by simp [SetsPc], by decide, rfl, rfl, by decide, rfl, rfl,
    .ldbtPostInc 0 8, .addressRegisterOverlap, by decide, by simp [SetsPc], by decide, by decide, rfl⟩

/-- An injected reserved word is refused like a fetched one (R422); an injected `rspc` takes its data word (R381), and
is refused without one, like `mfdp` (R429). -/
theorem test_inject_reserved_and_rspc :
    (match step (injecting 3 none) with
      | .refused q => q == .reservedEncoding .low11
      | _ => false) = true ∧
    Result.meets (step (injecting 0xC0075 (some 0x4000))) (fun t => t.pc == 0x4000) = true ∧
    (match step (injecting 0xC0075 none), step (injecting 0x5002E none) with
      | .refused q, .refused r => q == .debugInputUndriven && r == .debugInputUndriven
      | _, _ => false) = true := by decide

theorem witness_StopAndResume :
    ({ start [] with inputs := [.stopRequest] } : State).inputs = .stopRequest :: [] ∧
    ({ start [] with inputs := [.resume], run := .stopped } : State).inputs = .resume :: [] ∧
    ({ start [] with inputs := [.resume], run := .stopped } : State).run = .stopped ∧
    ({ start [] with inputs := [.resume] } : State).inputs = .resume :: [] ∧
    ({ start [] with inputs := [.resume] } : State).run = .running := by decide

/-- HostMemoryLoads: both kinds, stopped and running, at the highest address. -/
theorem witness_HostMemoryLoads :
    ({ start [] with inputs := [.loadData 0xFFFF 7], run := .stopped } : State).inputs = .loadData 0xFFFF 7 :: [] ∧
    ({ start [] with inputs := [.loadInstr 0xFFFF 3], run := .stopped } : State).inputs = .loadInstr 0xFFFF 3 :: [] ∧
    ({ start [] with run := .stopped } : State).run = .stopped ∧ (start []).run = .running ∧
    Result.meets (step { start [] with inputs := [.loadData 0xFFFF 7], run := .stopped })
      (fun t => t.readByte 0xFFFF == 7) = true := by decide

/-- InterruptEntry and ReturnRestoresInterruptedProgram: interrupts 0 and 15; the handler's vector is in memory. -/
theorem witness_InterruptEntry :
    let s : BitVec 4 → State := fun k =>
      { filled [(0x003E, 0x34), (0x003F, 0x12)] (start []) with
        inputs := [.interrupt k], csIe := true, csIr := false, ivtp := 1 }
    ((s 0).inputs = .interrupt 0 :: [] ∧ (s 0).csIe = true ∧ (s 0).csIr = false ∧ (s 0).run = .running) ∧
    (s 15).inputs = .interrupt 15 :: [] ∧ Result.meets (step (s 15)) (fun t => t.pc == 0x1234) = true ∧
    ∃ t u : State, step (s 15) = .next t ∧ exec .rtir t = .next u := by
  refine ⟨by decide, by decide, by decide, _, _, rfl, rfl⟩

/-- InterruptEntry: a request that has no effect, for each of the three reasons. -/
theorem witness_UnacknowledgedRequest :
    let s : State := { start [] with inputs := [.interrupt 3] }
    s.inputs = .interrupt 3 :: [] ∧ s.csIe = false ∧ s.csIr = true ∧ ({ s with run := .stopped } : State).run = .stopped := by
  decide

/-- SystemStateHasFewWriters: an instruction that changes CC. -/
theorem witness_OnlyFlagInstructions :
    ∃ t, exec (.compReg 1 2) (start []) = .next t ∧ t.cc ≠ (start []).cc := ⟨_, rfl, by decide⟩

/-- SystemStateHasFewWriters: an instruction that changes each other part. -/
theorem witness_SystemStateWriters :
    (∃ t, exec .rtir (start []) = .next t ∧ t.csIr ≠ (start []).csIr) ∧
    (∃ t, exec .stie (start []) = .next t ∧ t.csIe ≠ (start []).csIe) ∧
    (∃ t, exec .scie { start [] with csIe := true } = .next t ∧ t.csIs ≠ (start []).csIs) ∧
    (∃ t, exec (.mtsrReg 1 1) (start [(1, 0xFFFF)]) = .next t ∧ t.ivtp ≠ (start []).ivtp) ∧
    (∃ t, exec (.mtsrImm 1 4) (start []) = .next t ∧ t.u0 ≠ (start []).u0) ∧
    (∃ t, exec (.mtsrImm 1 13) (start []) = .next t ∧ t.ia ≠ (start []).ia) ∧
    (∃ t, exec (.mtsrImm 1 14) (start []) = .next t ∧ t.ta ≠ (start []).ta) ∧
    (∃ t, exec (.brlc 5) (start []) = .next t ∧ t.lc ≠ (start []).lc) ∧
    ∃ t, exec .stop (start []) = .next t ∧ t.run ≠ (start []).run :=
  ⟨⟨_, rfl, by decide⟩, ⟨_, rfl, by decide⟩, ⟨_, rfl, by decide⟩, ⟨_, rfl, by decide⟩, ⟨_, rfl, by decide⟩,
    ⟨_, rfl, by decide⟩, ⟨_, rfl, by decide⟩, ⟨_, rfl, by decide⟩, _, rfl, by decide⟩

/-- ResetStartsAtIrnPage and ResetLeavesDefinedState: both values of `STRQ`, both ends of `IRN`. -/
theorem witness_Reset :
    ({ start [] with inputs := [.reset 0 false] } : State).inputs = .reset 0 false :: [] ∧
    ({ start [] with inputs := [.reset 15 true] } : State).inputs = .reset 15 true :: [] ∧
    Result.meets (step { start [] with inputs := [.reset 15 true] }) (fun t => t.pc == 0xF000 && t.run == .stopped) = true := by
  decide

theorem witness_StepKeepsInvariant :
    (placed 0xC0085).Inv ∧ ∃ t, step (placed 0xC0085) = .next t := ⟨⟨by decide, by decide⟩, _, rfl⟩

/-- OnlyTheHostWritesInstructions: a step that loads a word, and one that does not. -/
theorem witness_OnlyTheHostWrites :
    (∃ t, step { start [] with run := .stopped, inputs := [.loadInstr 0xFFFF 0xC0045] } = .next t) ∧
    (∃ t, step (placed 0xC0085) = .next t) ∧
    ∀ (a : Word) (w : Opcode) (es : List HostEvent), (placed 0xC0085).inputs ≠ .loadInstr a w :: es :=
  ⟨⟨_, rfl⟩, ⟨_, rfl⟩, fun _ _ _ => nofun⟩

end Sys2Proof.Tests
end

section
/-! SUPPORT. The move instructions (42_move.md): the words and results of `move`, `mvsr` and `mtdp`, and the pair
`move`, `addh` that builds a 16-bit constant. -/

namespace Sys2Proof.Machine

/-! ## From the table to a word, for every instruction -/

/-- The word the encoder gives an instruction, in the spec's pattern `w`, is that instruction: the table row that covers
it reads it back. -/
theorem isWordOf_of_encode {i : Instr} {v w : Opcode} (hrow : Laws.EncodingMatchesTable.Statement i)
    (henc : encode i = some v) (hpat : v = w) : IsWordOf w i := by
  subst hpat
  obtain ⟨r, hmem, hcovers, hbuild⟩ := hrow _ _ henc
  exact (decodeWith_of_row hmem hcovers).trans (congrArg Except.ok hbuild)

/-! ## The words -/

theorem moveReg_isWordOf (rs rd : RegNum) : IsWordOf (patR2 0b01000000 rs rd) (.moveReg rs rd) :=
  isWordOf_of_encode (Laws.EncodingMatchesTable.moveReg rs rd) rfl (encR2_eq_pat ..)

theorem moveImm_isWordOf (c10 : BitVec 10) (rd : RegNum) : IsWordOf (patI10 c10 0 rd 0b0110) (.moveImm c10 rd) :=
  isWordOf_of_encode (Laws.EncodingMatchesTable.moveImm c10 rd) rfl (encI10_eq_pat ..)

theorem mvsr_isWordOf (c10 : BitVec 10) (rd : RegNum) : IsWordOf (patI10 c10 1 rd 0b0110) (.mvsr c10 rd) :=
  isWordOf_of_encode (Laws.EncodingMatchesTable.mvsr c10 rd) rfl (encI10_eq_pat ..)

theorem mtdp_isWordOf (rs : RegNum) : IsWordOf (patR2 0b01010001 rs 0) (.mtdp rs) :=
  isWordOf_of_encode (Laws.EncodingMatchesTable.mtdp rs) rfl (encR2_eq_pat ..)

/-! ## The results -/

theorem moveReg_puts (s : State) (rs rd : RegNum) : Puts (.moveReg rs rd) s rd (s.reg rs) :=
  puts_of_finish rfl rfl

theorem moveImm_puts (s : State) (c10 : BitVec 10) (rd : RegNum) : Puts (.moveImm c10 rd) s rd (sext c10) :=
  puts_of_finish rfl rfl

theorem mvsr_puts (s : State) (c10 : BitVec 10) (rd : RegNum) : Puts (.mvsr c10 rd) s rd (s.reg 8 + sext c10) :=
  puts_of_finish rfl rfl

theorem addh_puts (s : State) (hi : BitVec 8) (rb : RegNum) : Puts (.addh hi rb) s rb (s.reg rb + c16 hi) :=
  puts_of_finish rfl rfl

theorem exec_mtdp (s : State) (rs : RegNum) : exec (.mtdp rs) s = .next (s.dbgOut (s.reg rs)).advance := rfl

/-- Driving `DBO` and going on changes the latch, the outputs and pc, and nothing else. -/
theorem dbgOut_advance_kept (s : State) (v : Word) : Kept s (s.dbgOut v).advance [.dbo, .outputs, .pc] := by
  intro p hp
  cases p <;> simp_all [Part.Same]

/-! ## The constant pair (R257) -/

/-- A byte in the low bits of a C10_S has bit 9 clear, so its sign extension adds no one bits. -/
theorem sext_setWidth_byte (b : BitVec 8) : sext (b.setWidth 10) = zext b := by
  have hmsb : (b.setWidth 10).msb = false := by simp [BitVec.msb_setWidth]
  rw [sext, zext, BitVec.signExtend_eq_setWidth_of_msb_false hmsb, BitVec.setWidth_setWidth (by decide)]

/-- A word is its low byte plus 256 times its high byte. -/
theorem zext_low_add_c16_high (k : Word) : zext (k.extractLsb' 0 8) + c16 (k.extractLsb' 8 8) = k := by
  apply BitVec.eq_of_toNat_eq
  simp only [zext, c16, BitVec.toNat_add, BitVec.toNat_shiftLeft, BitVec.toNat_setWidth, BitVec.extractLsb'_toNat,
    Nat.shiftLeft_eq, Nat.shiftRight_eq_div_pow]
  omega

/-- The value `move` and `addh` build from the two bytes of a constant. -/
theorem sext_low_add_c16_high (k : Word) :
    sext ((k.extractLsb' 0 8).setWidth 10) + c16 (k.extractLsb' 8 8) = k := by
  rw [sext_setWidth_byte, zext_low_add_c16_high]

/-! ## The obligations -/

/-- Settles O25: the rows of the three forms, and their results by `finish`. -/
theorem moveAndStackReference : Obligations.MoveAndStackReference := fun s rs rd c10 =>
  ⟨moveReg_isWordOf rs rd, moveReg_puts s rs rd, moveImm_isWordOf c10 rd, moveImm_puts s c10 rd,
    mvsr_isWordOf c10 rd, mvsr_puts s c10 rd⟩

/-- Settles O26: the two results one after the other; what each keeps, the pair keeps. -/
theorem constantPairBuildsAnyWord : Obligations.ConstantPairBuildsAnyWord := by
  intro s k rd
  obtain ⟨t, hmove, hlow, -, hkept⟩ := moveImm_puts s ((k.extractLsb' 0 8).setWidth 10) rd
  obtain ⟨u, haddh, hsum, -, hkept'⟩ := addh_puts t (k.extractLsb' 8 8) rd
  refine ⟨t, hmove, u, haddh, ?_, (hkept.trans hkept').mono (by simp)⟩
  rw [hsum, hlow, sext_low_add_c16_high]

/-- Settles O29: `mtdp` is `dbgOut` of its register, then the advance. -/
theorem moveToDebugPort : Obligations.MoveToDebugPort := fun s rs =>
  ⟨mtdp_isWordOf rs, _, exec_mtdp s rs, by simp, by simp, inSequence_of_succ (by simp),
    dbgOut_advance_kept s (s.reg rs)⟩

end Sys2Proof.Machine
end

section
/-! SUPPORT. The arithmetic instructions (43_arithmetic.md): the words of the additions, subtractions, comparisons and
unary forms, their flags in the terms of R291 and R292, and their results. -/

namespace Sys2Proof.Machine

/-! ## The words -/

theorem addtReg_isWordOf (rs0 rs1 rd : RegNum) :
    IsWordOf (patR3 0b0001 rs0 rs1 rd 0b1010) (.addtReg rs0 rs1 rd) :=
  isWordOf_of_encode (Laws.EncodingMatchesTable.addtReg rs0 rs1 rd) rfl (encR3_eq_pat ..)

theorem addtImm_isWordOf (c8 : BitVec 8) (rb : RegNum) : IsWordOf (patI8 c8 0b001 rb) (.addtImm c8 rb) :=
  isWordOf_of_encode (Laws.EncodingMatchesTable.addtImm c8 rb) rfl (encI8_eq_pat ..)

theorem addc_isWordOf (rs0 rs1 rd : RegNum) : IsWordOf (patR3 0b0011 rs0 rs1 rd 0b1010) (.addc rs0 rs1 rd) :=
  isWordOf_of_encode (Laws.EncodingMatchesTable.addc rs0 rs1 rd) rfl (encR3_eq_pat ..)

theorem adcf_isWordOf (rs rd : RegNum) : IsWordOf (patR2 0b01001001 rs rd) (.adcf rs rd) :=
  isWordOf_of_encode (Laws.EncodingMatchesTable.adcf rs rd) rfl (encR2_eq_pat ..)

theorem subfReg_isWordOf (rs0 rs1 rd : RegNum) :
    IsWordOf (patR3 0b0000 rs0 rs1 rd 0b1010) (.subfReg rs0 rs1 rd) :=
  isWordOf_of_encode (Laws.EncodingMatchesTable.subfReg rs0 rs1 rd) rfl (encR3_eq_pat ..)

theorem subfImm_isWordOf (c8 : BitVec 8) (rb : RegNum) : IsWordOf (patI8 c8 0b000 rb) (.subfImm c8 rb) :=
  isWordOf_of_encode (Laws.EncodingMatchesTable.subfImm c8 rb) rfl (encI8_eq_pat ..)

theorem subc_isWordOf (rs0 rs1 rd : RegNum) : IsWordOf (patR3 0b0010 rs0 rs1 rd 0b1010) (.subc rs0 rs1 rd) :=
  isWordOf_of_encode (Laws.EncodingMatchesTable.subc rs0 rs1 rd) rfl (encR3_eq_pat ..)

theorem sbcf_isWordOf (rs rd : RegNum) : IsWordOf (patR2 0b01001000 rs rd) (.sbcf rs rd) :=
  isWordOf_of_encode (Laws.EncodingMatchesTable.sbcf rs rd) rfl (encR2_eq_pat ..)

theorem compReg_isWordOf (rs0 rs1 : RegNum) : IsWordOf (patR2 0b01011000 rs0 rs1) (.compReg rs0 rs1) :=
  isWordOf_of_encode (Laws.EncodingMatchesTable.compReg rs0 rs1) rfl (encR2_eq_pat ..)

theorem compImm_isWordOf (c10 : BitVec 10) (rs1 : RegNum) : IsWordOf (patI10 c10 0 rs1 0b1010) (.compImm c10 rs1) :=
  isWordOf_of_encode (Laws.EncodingMatchesTable.compImm c10 rs1) rfl (encI10_eq_pat ..)

theorem cmpc_isWordOf (rs0 rs1 : RegNum) : IsWordOf (patR2 0b01011001 rs0 rs1) (.cmpc rs0 rs1) :=
  isWordOf_of_encode (Laws.EncodingMatchesTable.cmpc rs0 rs1) rfl (encR2_eq_pat ..)

theorem cpcf_isWordOf (rs : RegNum) : IsWordOf (patR2 0b01001010 rs 0) (.cpcf rs) :=
  isWordOf_of_encode (Laws.EncodingMatchesTable.cpcf rs) rfl (encR2_eq_pat ..)

theorem negt_isWordOf (rs rd : RegNum) : IsWordOf (patR2 0b01000010 rs rd) (.negt rs rd) :=
  isWordOf_of_encode (Laws.EncodingMatchesTable.negt rs rd) rfl (encR2_eq_pat ..)

theorem absl_isWordOf (rs rd : RegNum) : IsWordOf (patR2 0b01000011 rs rd) (.absl rs rd) :=
  isWordOf_of_encode (Laws.EncodingMatchesTable.absl rs rd) rfl (encR2_eq_pat ..)

theorem clzr_isWordOf (rs rd : RegNum) : IsWordOf (patR2 0b01000101 rs rd) (.clzr rs rd) :=
  isWordOf_of_encode (Laws.EncodingMatchesTable.clzr rs rd) rfl (encR2_eq_pat ..)

theorem sxbt_isWordOf (rs rd : RegNum) : IsWordOf (patR2 0b01000110 rs rd) (.sxbt rs rd) :=
  isWordOf_of_encode (Laws.EncodingMatchesTable.sxbt rs rd) rfl (encR2_eq_pat ..)

theorem sxsh_isWordOf (rs rd : RegNum) : IsWordOf (patR2 0b01000111 rs rd) (.sxsh rs rd) :=
  isWordOf_of_encode (Laws.EncodingMatchesTable.sxsh rs rd) rfl (encR2_eq_pat ..)

/-! ## The flags (R291, R292) -/

theorem addFlags_isZero (x y r : Word) : addFlags x y r (isZero r) = afterAdd x y r := addFlags_eq ..

theorem addFlags_chainZ (old : Flags) (x y r : Word) :
    addFlags x y r (chainZ old.z r) = chainedZ old (afterAdd x y r) := addFlags_eq ..

theorem diffFlags_eq (src0 src1 : Word) : diffFlags src0 src1 = afterSub src1 src0 (src1 - src0) := subFlags_eq ..

theorem diffFlagsC_eq (s : State) (src0 src1 : Word) :
    s.diffFlagsC src0 src1 = chainedZ s.cc (afterSub src1 src0 (src1 - src0 - carryIn s)) := subFlags_eq ..

/-! ## Additions, subtractions and comparisons of any two operands -/

section
variable {i : Instr} {s : State} {src0 src1 : Word} {rd : RegNum}

theorem putsCC_of_add (h : exec i s = .next (s.add src0 src1 rd)) :
    PutsCC i s rd (src1 + src0) (afterAdd src1 src0 (src1 + src0)) :=
  putsCC_of_finishCC h rfl (addFlags_isZero ..)

theorem putsCC_of_addWithCarry (h : exec i s = .next (s.addWithCarry src0 src1 rd)) :
    PutsCC i s rd (src1 + src0 + carryIn s) (chainedZ s.cc (afterAdd src1 src0 (src1 + src0 + carryIn s))) :=
  putsCC_of_finishCC h rfl (addFlags_chainZ ..)

theorem putsCC_of_diff (h : exec i s = .next (s.finishCC rd (src1 - src0) (diffFlags src0 src1))) :
    PutsCC i s rd (src1 - src0) (afterSub src1 src0 (src1 - src0)) :=
  putsCC_of_finishCC h rfl (diffFlags_eq ..)

theorem putsCC_of_diffC (h : exec i s = .next (s.finishCC rd (s.diffC src0 src1) (s.diffFlagsC src0 src1))) :
    PutsCC i s rd (src1 - src0 - carryIn s) (chainedZ s.cc (afterSub src1 src0 (src1 - src0 - carryIn s))) :=
  putsCC_of_finishCC h rfl (diffFlagsC_eq ..)

theorem tests_of_diff (h : exec i s = .next (s.finishTest (diffFlags src0 src1))) :
    Tests i s (afterSub src1 src0 (src1 - src0)) :=
  tests_of_finishTest h (diffFlags_eq ..)

theorem tests_of_diffC (h : exec i s = .next (s.finishTest (s.diffFlagsC src0 src1))) :
    Tests i s (chainedZ s.cc (afterSub src1 src0 (src1 - src0 - carryIn s))) :=
  tests_of_finishTest h (diffFlagsC_eq ..)

end

/-! ## The results of the additions -/

section
variable (s : State) (rs rs0 rs1 rd rb : RegNum) (c8 : BitVec 8) (c10 : BitVec 10)

theorem addtReg_putsCC : PutsCC (.addtReg rs0 rs1 rd) s rd (s.reg rs1 + s.reg rs0)
    (afterAdd (s.reg rs1) (s.reg rs0) (s.reg rs1 + s.reg rs0)) :=
  putsCC_of_add rfl

theorem addtImm_putsCC : PutsCC (.addtImm c8 rb) s rb (s.reg rb + zext c8)
    (afterAdd (s.reg rb) (zext c8) (s.reg rb + zext c8)) :=
  putsCC_of_add rfl

theorem addc_putsCC : PutsCC (.addc rs0 rs1 rd) s rd (s.reg rs1 + s.reg rs0 + carryIn s)
    (chainedZ s.cc (afterAdd (s.reg rs1) (s.reg rs0) (s.reg rs1 + s.reg rs0 + carryIn s))) :=
  putsCC_of_addWithCarry rfl

/-- `adcf` adds a zero operand and the carry, so its sum is Rs + C. -/
theorem adcf_putsCC : PutsCC (.adcf rs rd) s rd (s.reg rs + carryIn s)
    (chainedZ s.cc (afterAdd (s.reg rs) 0#16 (s.reg rs + carryIn s))) := by
  have h : PutsCC (.adcf rs rd) s rd _ _ := putsCC_of_addWithCarry (src0 := 0#16) (src1 := s.reg rs) rfl
  rwa [BitVec.add_zero] at h

/-! ## The results of the subtractions -/

theorem subfReg_putsCC : PutsCC (.subfReg rs0 rs1 rd) s rd (s.reg rs1 - s.reg rs0)
    (afterSub (s.reg rs1) (s.reg rs0) (s.reg rs1 - s.reg rs0)) :=
  putsCC_of_diff rfl

theorem subfImm_putsCC : PutsCC (.subfImm c8 rb) s rb (s.reg rb - zext c8)
    (afterSub (s.reg rb) (zext c8) (s.reg rb - zext c8)) :=
  putsCC_of_diff rfl

theorem subc_putsCC : PutsCC (.subc rs0 rs1 rd) s rd (s.reg rs1 - s.reg rs0 - carryIn s)
    (chainedZ s.cc (afterSub (s.reg rs1) (s.reg rs0) (s.reg rs1 - s.reg rs0 - carryIn s))) :=
  putsCC_of_diffC rfl

/-- `sbcf` subtracts a zero operand and the carry, so its difference is Rs - C. -/
theorem sbcf_putsCC : PutsCC (.sbcf rs rd) s rd (s.reg rs - carryIn s)
    (chainedZ s.cc (afterSub (s.reg rs) 0#16 (s.reg rs - carryIn s))) := by
  have h : PutsCC (.sbcf rs rd) s rd _ _ := putsCC_of_diffC (src0 := 0#16) (src1 := s.reg rs) rfl
  rwa [BitVec.sub_zero] at h

/-! ## The results of the comparisons -/

theorem compReg_tests :
    Tests (.compReg rs0 rs1) s (afterSub (s.reg rs1) (s.reg rs0) (s.reg rs1 - s.reg rs0)) :=
  tests_of_diff rfl

theorem compImm_tests :
    Tests (.compImm c10 rs1) s (afterSub (s.reg rs1) (sext c10) (s.reg rs1 - sext c10)) :=
  tests_of_diff rfl

theorem cmpc_tests : Tests (.cmpc rs0 rs1) s
    (chainedZ s.cc (afterSub (s.reg rs1) (s.reg rs0) (s.reg rs1 - s.reg rs0 - carryIn s))) :=
  tests_of_diffC rfl

/-- `cpcf` compares with a zero operand and the carry, so its difference is Rs - C. -/
theorem cpcf_tests : Tests (.cpcf rs) s (chainedZ s.cc (afterSub (s.reg rs) 0#16 (s.reg rs - carryIn s))) := by
  have h : Tests (.cpcf rs) s _ := tests_of_diffC (src0 := 0#16) (src1 := s.reg rs) rfl
  rwa [BitVec.sub_zero] at h

/-! ## The results of the unary forms -/

theorem negt_puts : Puts (.negt rs rd) s rd (0#16 - s.reg rs) := puts_of_finish rfl rfl

theorem absl_puts : Puts (.absl rs rd) s rd (absWord (s.reg rs)) := puts_of_finish rfl rfl

theorem clzr_puts : Puts (.clzr rs rd) s rd (BitVec.ofNat 16 (leadingZeros (s.reg rs) 16)) :=
  puts_of_finish rfl rfl

theorem sxbt_puts : Puts (.sxbt rs rd) s rd (((s.reg rs).extractLsb' 0 8).signExtend 16) := puts_of_finish rfl rfl

theorem sxsh_puts : Puts (.sxsh rs rd) s rd (if (s.reg rs).msb then 0xFFFF#16 else 0#16) := puts_of_finish rfl rfl

end

/-! ## The sign of a short (R270, R289) -/

theorem msb_eq_bit15 (x : Word) : x.msb = x.getLsbD 15 := BitVec.msb_eq_getLsbD_last x

theorem absWord_of_negative {x : Word} (h : x.getLsbD 15 = true) : absWord x = 0#16 - x := by
  simp only [absWord, msb_eq_bit15, h, if_true]

theorem absWord_of_nonnegative {x : Word} (h : x.getLsbD 15 = false) : absWord x = x := by
  simp only [absWord, msb_eq_bit15, h, Bool.false_eq_true, if_false]

/-! ## Leading zeros (R277) -/

theorem leadingZeros_zero (n : Nat) : leadingZeros 0#16 n = n := by
  induction n with
  | zero => rfl
  | succ n ih => simp [leadingZeros, ih]

/-- From bit n - 1 down to the highest set bit k there are n - 1 - k zeros: the count stops at bit k and takes every bit
above it. -/
theorem leadingZeros_of_highest {x : Word} {k n : Nat} (hkn : k < n) (hset : x.getLsbD k = true)
    (habove : ∀ j : Nat, k < j → x.getLsbD j = false) : leadingZeros x n = n - 1 - k := by
  induction n with
  | zero => omega
  | succ n ih =>
    rcases Nat.lt_succ_iff_lt_or_eq.mp hkn with hlt | rfl
    · have hcount := ih hlt
      simp only [leadingZeros, habove n hlt, Bool.false_eq_true, if_false, hcount]
      omega
    · simp [leadingZeros, hset]

/-! ## The obligations -/

/-- Settles O11: the rows of the four forms, and their sums and flags by `finishCC`. -/
theorem additionsWriteSumAndFlags : Obligations.AdditionsWriteSumAndFlags := fun s rs0 rs1 rd rb c8 =>
  ⟨addtReg_isWordOf rs0 rs1 rd, addtReg_putsCC s rs0 rs1 rd, addtImm_isWordOf c8 rb, addtImm_putsCC s rb c8,
    addc_isWordOf rs0 rs1 rd, addc_putsCC s rs0 rs1 rd, adcf_isWordOf rs0 rd, adcf_putsCC s rs0 rd⟩

/-- Settles O12: the rows of the four forms, and their differences and flags by `finishCC`. -/
theorem subtractionsWriteDifferenceAndFlags : Obligations.SubtractionsWriteDifferenceAndFlags :=
  fun s rs0 rs1 rd rb c8 =>
    ⟨subfReg_isWordOf rs0 rs1 rd, subfReg_putsCC s rs0 rs1 rd, subfImm_isWordOf c8 rb, subfImm_putsCC s rb c8,
      subc_isWordOf rs0 rs1 rd, subc_putsCC s rs0 rs1 rd, sbcf_isWordOf rs0 rd, sbcf_putsCC s rs0 rd⟩

/-- Settles O13: the rows of the four forms, and their flags by `finishTest`. -/
theorem comparisonsWriteFlagsOnly : Obligations.ComparisonsWriteFlagsOnly := fun s rs0 rs1 c10 =>
  ⟨compReg_isWordOf rs0 rs1, compReg_tests s rs0 rs1, compImm_isWordOf c10 rs1, compImm_tests s rs1 c10,
    cmpc_isWordOf rs0 rs1, cmpc_tests s rs0 rs1, cpcf_isWordOf rs0, cpcf_tests s rs0⟩

/-- Settles O16: the rows of the five forms and their results by `finish`; `absl` and `sxsh` by the sign of the operand,
`clzr` by its highest set bit. -/
theorem unaryArithmeticWritesRd : Obligations.UnaryArithmeticWritesRd := by
  intro s rs rd
  refine ⟨negt_isWordOf rs rd, negt_puts s rs rd, absl_isWordOf rs rd, fun hneg => ?abslNegative,
    fun hpos => ?abslNonnegative, clzr_isWordOf rs rd, fun hzero => ?clzrZero, fun k hk hset habove => ?clzrHighest,
    sxbt_isWordOf rs rd, sxbt_puts s rs rd, sxsh_isWordOf rs rd, fun hneg => ?sxshNegative,
    fun hpos => ?sxshNonnegative⟩
  case abslNegative => simpa only [absWord_of_negative hneg] using absl_puts s rs rd
  case abslNonnegative => simpa only [absWord_of_nonnegative hpos] using absl_puts s rs rd
  case clzrZero => simpa only [hzero, leadingZeros_zero] using clzr_puts s rs rd
  case clzrHighest => simpa only [leadingZeros_of_highest hk hset habove] using clzr_puts s rs rd
  case sxshNegative => simpa only [msb_eq_bit15, hneg, if_true] using sxsh_puts s rs rd
  case sxshNonnegative =>
    simpa only [msb_eq_bit15, hpos, Bool.false_eq_true, if_false] using sxsh_puts s rs rd

end Sys2Proof.Machine
end

section
/-! SUPPORT. The logic instructions (44_logic.md): the words of `andb`, `iorb`, `xorb` and `invt`, the flags of `andb` in
the terms of R300, and the results. -/

namespace Sys2Proof.Machine

/-! ## The words -/

theorem andbReg_isWordOf (rs0 rs1 rd : RegNum) :
    IsWordOf (patR3 0b0101 rs0 rs1 rd 0b1010) (.andbReg rs0 rs1 rd) :=
  isWordOf_of_encode (Laws.EncodingMatchesTable.andbReg rs0 rs1 rd) rfl (encR3_eq_pat ..)

theorem andbImm_isWordOf (c8 : BitVec 8) (rb : RegNum) : IsWordOf (patI8 c8 0b101 rb) (.andbImm c8 rb) :=
  isWordOf_of_encode (Laws.EncodingMatchesTable.andbImm c8 rb) rfl (encI8_eq_pat ..)

theorem iorbReg_isWordOf (rs0 rs1 rd : RegNum) :
    IsWordOf (patR3 0b0110 rs0 rs1 rd 0b1010) (.iorbReg rs0 rs1 rd) :=
  isWordOf_of_encode (Laws.EncodingMatchesTable.iorbReg rs0 rs1 rd) rfl (encR3_eq_pat ..)

theorem iorbImm_isWordOf (c8 : BitVec 8) (rb : RegNum) : IsWordOf (patI8 c8 0b110 rb) (.iorbImm c8 rb) :=
  isWordOf_of_encode (Laws.EncodingMatchesTable.iorbImm c8 rb) rfl (encI8_eq_pat ..)

theorem xorbReg_isWordOf (rs0 rs1 rd : RegNum) :
    IsWordOf (patR3 0b0111 rs0 rs1 rd 0b1010) (.xorbReg rs0 rs1 rd) :=
  isWordOf_of_encode (Laws.EncodingMatchesTable.xorbReg rs0 rs1 rd) rfl (encR3_eq_pat ..)

theorem xorbImm_isWordOf (c8 : BitVec 8) (rb : RegNum) : IsWordOf (patI8 c8 0b111 rb) (.xorbImm c8 rb) :=
  isWordOf_of_encode (Laws.EncodingMatchesTable.xorbImm c8 rb) rfl (encI8_eq_pat ..)

theorem invt_isWordOf (rs rd : RegNum) : IsWordOf (patR2 0b01000100 rs rd) (.invt rs rd) :=
  isWordOf_of_encode (Laws.EncodingMatchesTable.invt rs rd) rfl (encR2_eq_pat ..)

/-! ## The flags of `andb` (R300) -/

/-- The flags of `andb` as R300 gives them: the exclusive or of all 16 bits is the new C, and with the C before it the
new O. -/
def afterAnd (old : Flags) (r : Word) : Flags :=
  let par := ((List.range 16).map r.getLsbD).foldl (· ^^ ·) false
  ⟨r.getLsbD 15, r == 0#16, par ^^ old.c, par⟩

/-- The model's recursion takes the bits in the order of the fold, bit 0 first. -/
theorem parityTo_eq_foldl (r : Word) (k : Nat) :
    parityTo r k = ((List.range k).map r.getLsbD).foldl (· ^^ ·) false := by
  induction k with
  | zero => rfl
  | succ k ih => simp [parityTo, ih, List.range_succ]

theorem andFlags_eq (old : Flags) (r : Word) : andFlags old r = afterAnd old r := by
  simp only [andFlags, afterAnd, isZero, parity, parityTo_eq_foldl, msb_eq_bit15]

/-! ## The results -/

section
variable (s : State) (rs rs0 rs1 rd rb : RegNum) (c8 : BitVec 8)

theorem andbReg_putsCC : PutsCC (.andbReg rs0 rs1 rd) s rd (s.reg rs1 &&& s.reg rs0)
    (afterAnd s.cc (s.reg rs1 &&& s.reg rs0)) :=
  putsCC_of_finishCC rfl rfl (andFlags_eq ..)

theorem andbImm_putsCC : PutsCC (.andbImm c8 rb) s rb (s.reg rb &&& zext c8)
    (afterAnd s.cc (s.reg rb &&& zext c8)) :=
  putsCC_of_finishCC rfl rfl (andFlags_eq ..)

theorem iorbReg_puts : Puts (.iorbReg rs0 rs1 rd) s rd (s.reg rs1 ||| s.reg rs0) := puts_of_finish rfl rfl

theorem iorbImm_puts : Puts (.iorbImm c8 rb) s rb (s.reg rb ||| zext c8) := puts_of_finish rfl rfl

theorem xorbReg_puts : Puts (.xorbReg rs0 rs1 rd) s rd (s.reg rs1 ^^^ s.reg rs0) := puts_of_finish rfl rfl

theorem xorbImm_puts : Puts (.xorbImm c8 rb) s rb (s.reg rb ^^^ zext c8) := puts_of_finish rfl rfl

/-- The model inverts by an exclusive or with sixteen ones. -/
theorem invt_puts : Puts (.invt rs rd) s rd (~~~ s.reg rs) := puts_of_finish rfl BitVec.xor_allOnes

end

/-! ## The obligations -/

/-- Settles O18: the rows of the two forms, and their results by `finishCC` with the flags of R300. -/
theorem andWritesResultAndParity : Obligations.AndWritesResultAndParity := fun s rs0 rs1 rd rb c8 =>
  ⟨andbReg_isWordOf rs0 rs1 rd, andbReg_putsCC s rs0 rs1 rd, andbImm_isWordOf c8 rb, andbImm_putsCC s rb c8⟩

/-- Settles O19: the rows of the five forms, and their results by `finish`. -/
theorem orExclusiveOrInvert : Obligations.OrExclusiveOrInvert := fun s rs0 rs1 rd rb c8 =>
  ⟨iorbReg_isWordOf rs0 rs1 rd, iorbReg_puts s rs0 rs1 rd, iorbImm_isWordOf c8 rb, iorbImm_puts s rb c8,
    xorbReg_isWordOf rs0 rs1 rd, xorbReg_puts s rs0 rs1 rd, xorbImm_isWordOf c8 rb, xorbImm_puts s rb c8,
    invt_isWordOf rs0 rd, invt_puts s rs0 rd⟩

end Sys2Proof.Machine
end

section
/-! SUPPORT. The shift instructions (45_shift.md): the words of `shlz`, `shru`, `shlf` and `shrs`, the four shifts in
arithmetic terms, and the results. -/

namespace Sys2Proof.Machine

/-! ## The words -/

theorem shlzReg_isWordOf (rs0 rs1 rd : RegNum) :
    IsWordOf (patR3 0b0000 rs0 rs1 rd 0b0010) (.shlzReg rs0 rs1 rd) :=
  isWordOf_of_encode (Laws.EncodingMatchesTable.shlzReg rs0 rs1 rd) rfl (encR3_eq_pat ..)

theorem shlzImm_isWordOf (k : BitVec 4) (rs1 rd : RegNum) :
    IsWordOf (patR3 0b0000 k rs1 rd 0b0110) (.shlzImm k rs1 rd) :=
  isWordOf_of_encode (Laws.EncodingMatchesTable.shlzImm k rs1 rd) rfl (encR3_eq_pat ..)

theorem shruReg_isWordOf (rs0 rs1 rd : RegNum) :
    IsWordOf (patR3 0b0001 rs0 rs1 rd 0b0010) (.shruReg rs0 rs1 rd) :=
  isWordOf_of_encode (Laws.EncodingMatchesTable.shruReg rs0 rs1 rd) rfl (encR3_eq_pat ..)

theorem shruImm_isWordOf (k : BitVec 4) (rs1 rd : RegNum) :
    IsWordOf (patR3 0b0001 k rs1 rd 0b0110) (.shruImm k rs1 rd) :=
  isWordOf_of_encode (Laws.EncodingMatchesTable.shruImm k rs1 rd) rfl (encR3_eq_pat ..)

theorem shlfReg_isWordOf (rs0 rs1 rd : RegNum) :
    IsWordOf (patR3 0b0010 rs0 rs1 rd 0b0010) (.shlfReg rs0 rs1 rd) :=
  isWordOf_of_encode (Laws.EncodingMatchesTable.shlfReg rs0 rs1 rd) rfl (encR3_eq_pat ..)

theorem shlfImm_isWordOf (k : BitVec 4) (rs1 rd : RegNum) :
    IsWordOf (patR3 0b0010 k rs1 rd 0b0110) (.shlfImm k rs1 rd) :=
  isWordOf_of_encode (Laws.EncodingMatchesTable.shlfImm k rs1 rd) rfl (encR3_eq_pat ..)

theorem shrsReg_isWordOf (rs0 rs1 rd : RegNum) :
    IsWordOf (patR3 0b0011 rs0 rs1 rd 0b0010) (.shrsReg rs0 rs1 rd) :=
  isWordOf_of_encode (Laws.EncodingMatchesTable.shrsReg rs0 rs1 rd) rfl (encR3_eq_pat ..)

theorem shrsImm_isWordOf (k : BitVec 4) (rs1 rd : RegNum) :
    IsWordOf (patR3 0b0011 k rs1 rd 0b0110) (.shrsImm k rs1 rd) :=
  isWordOf_of_encode (Laws.EncodingMatchesTable.shrsImm k rs1 rd) rfl (encR3_eq_pat ..)

/-! ## The count and the four shifts in arithmetic terms (R310 to R314) -/

/-- Only bits [3:0] of a register count (R314). -/
theorem toNat_count (x : Word) : (count x).toNat = x.toNat % 16 := by
  rw [count, BitVec.extractLsb'_toNat, Nat.shiftRight_zero]

theorem shiftLeft_eq_ofNat (k : BitVec 4) (x : Word) : shiftLeft k x = BitVec.ofNat 16 (x.toNat * 2 ^ k.toNat) := by
  apply BitVec.eq_of_toNat_eq
  rw [shiftLeft, BitVec.toNat_shiftLeft, BitVec.toNat_ofNat, Nat.shiftLeft_eq]

theorem shiftRight_eq_ofNat (k : BitVec 4) (x : Word) :
    shiftRight k x = BitVec.ofNat 16 (x.toNat / 2 ^ k.toNat) := by
  rw [← Nat.shiftRight_eq_div_pow, ← BitVec.toNat_ushiftRight, BitVec.ofNat_toNat, BitVec.setWidth_eq, shiftRight]

/-- A count of four bits is below the width, so the library's rotation takes it as it is. -/
theorem rotateLeft_eq_bitVec_rotateLeft (k : BitVec 4) (x : Word) : rotateLeft k x = x.rotateLeft k.toNat :=
  (BitVec.rotateLeft_eq_rotateLeftAux_of_lt k.isLt).symm

/-- The sixteen ones of R312 shifted left fill exactly the bits that the right shift has left free with the sign, which
is what the arithmetic shift does. -/
theorem shiftRightSigned_eq_sshiftRight (k : BitVec 4) (x : Word) :
    shiftRightSigned k x = x.sshiftRight k.toNat := by
  cases hsign : x.msb with
  | false => simp [shiftRightSigned, hsign, BitVec.sshiftRight_eq_of_msb_false hsign]
  | true =>
    apply BitVec.eq_of_getLsbD_eq
    intro i hi
    by_cases hcopied : k.toNat + i < 16
    · have hzero : i < 16 - k.toNat := by omega
      simp [shiftRightSigned, hsign, BitVec.getElem_sshiftRight, hi, hcopied, hzero]
    · have hfilled : ¬ i < 16 - k.toNat := by omega
      have hone : (0xFFFF#16)[i - (16 - k.toNat)] = true := BitVec.getElem_allOnes _ (by omega)
      simp [shiftRightSigned, hsign, BitVec.getElem_sshiftRight, hi, hcopied, hfilled, hone]

theorem shiftRightSigned_eq_ofInt (k : BitVec 4) (x : Word) :
    shiftRightSigned k x = BitVec.ofInt 16 (x.toInt / 2 ^ k.toNat) := by
  rw [shiftRightSigned_eq_sshiftRight, BitVec.sshiftRight_eq, Int.shiftRight_eq_div_pow, Nat.cast_pow, Nat.cast_ofNat]

/-! ## The results -/

section
variable (s : State) (k : BitVec 4) (rs0 rs1 rd : RegNum)

theorem shlzImm_puts : Puts (.shlzImm k rs1 rd) s rd (BitVec.ofNat 16 ((s.reg rs1).toNat * 2 ^ k.toNat)) :=
  puts_of_finish rfl (shiftLeft_eq_ofNat ..)

theorem shruImm_puts : Puts (.shruImm k rs1 rd) s rd (BitVec.ofNat 16 ((s.reg rs1).toNat / 2 ^ k.toNat)) :=
  puts_of_finish rfl (shiftRight_eq_ofNat ..)

theorem shlfImm_puts : Puts (.shlfImm k rs1 rd) s rd ((s.reg rs1).rotateLeft k.toNat) :=
  puts_of_finish rfl (rotateLeft_eq_bitVec_rotateLeft ..)

theorem shrsImm_puts : Puts (.shrsImm k rs1 rd) s rd (BitVec.ofInt 16 ((s.reg rs1).toInt / 2 ^ k.toNat)) :=
  puts_of_finish rfl (shiftRightSigned_eq_ofInt ..)

theorem shlzReg_puts : Puts (.shlzReg rs0 rs1 rd) s rd
    (BitVec.ofNat 16 ((s.reg rs1).toNat * 2 ^ (count (s.reg rs0)).toNat)) :=
  puts_of_finish rfl (shiftLeft_eq_ofNat ..)

theorem shruReg_puts : Puts (.shruReg rs0 rs1 rd) s rd
    (BitVec.ofNat 16 ((s.reg rs1).toNat / 2 ^ (count (s.reg rs0)).toNat)) :=
  puts_of_finish rfl (shiftRight_eq_ofNat ..)

theorem shlfReg_puts : Puts (.shlfReg rs0 rs1 rd) s rd ((s.reg rs1).rotateLeft (count (s.reg rs0)).toNat) :=
  puts_of_finish rfl (rotateLeft_eq_bitVec_rotateLeft ..)

theorem shrsReg_puts : Puts (.shrsReg rs0 rs1 rd) s rd
    (BitVec.ofInt 16 ((s.reg rs1).toInt / 2 ^ (count (s.reg rs0)).toNat)) :=
  puts_of_finish rfl (shiftRightSigned_eq_ofInt ..)

end

/-! ## The obligation -/

/-- Settles O20: the rows of the eight forms, and their results by `finish`; the n of the statement is the count the
register forms take from Rs0. -/
theorem shiftsAndRotates : Obligations.ShiftsAndRotates := by
  intro s k rs0 rs1 rd n hn
  obtain rfl : n = (count (s.reg rs0)).toNat := hn.trans (toNat_count _).symm
  exact ⟨shlzImm_isWordOf k rs1 rd, shlzImm_puts s k rs1 rd, shruImm_isWordOf k rs1 rd, shruImm_puts s k rs1 rd,
    shlfImm_isWordOf k rs1 rd, shlfImm_puts s k rs1 rd, shrsImm_isWordOf k rs1 rd, shrsImm_puts s k rs1 rd,
    shlzReg_isWordOf rs0 rs1 rd, shlzReg_puts s rs0 rs1 rd, shruReg_isWordOf rs0 rs1 rd, shruReg_puts s rs0 rs1 rd,
    shlfReg_isWordOf rs0 rs1 rd, shlfReg_puts s rs0 rs1 rd, shrsReg_isWordOf rs0 rs1 rd, shrsReg_puts s rs0 rs1 rd⟩

end Sys2Proof.Machine
end

section
/-! SUPPORT. The bit manipulation instructions (46_bit.md): the words of `btcl`, `btst`, `bttg` and `btts`, the reserved
words of the pattern of `btts`, the mask and the flags of a bit test, and the results. -/

namespace Sys2Proof

/-! ## Reserved words -/

/-- A word whose bits under a mask keep it apart from every row of the table is reserved (R142). -/
theorem decodeWith_of_apartFrom {p : Option Config.MlcuFn3} {w m b : Opcode} (hw : w &&& m = b)
    (hapart : apartFrom m b ((rows p).map fun r => (r.mask, r.bits)) = true) :
    decodeWith p w = .error (reservedClass w) := by
  simp only [apartFrom, List.all_map, List.all_eq_true, Function.comp, bne_iff_ne] at hapart
  have hnone : (rows p).find? (·.covers w) = none := List.find?_eq_none.mpr fun r hr hcovers =>
    Row.not_both (r := ⟨m, b, r.build⟩) (hapart r hr) (beq_iff_eq.mpr hw) hcovers
  rw [decodeWith, hnone]

/-- The only row with 0101 in bits [19:16] and 0010 or 0110 in bits [3:0] is that of `btts`, which fixes bits [7:4] to 0
(R323). -/
theorem bitTest_apartFrom_rows : ∀ f ∈ [0b0010#4, 0b0110#4], ∀ d : BitVec 4, d ≠ 0#4 →
    apartFrom 0xF00FF#20 (encR3 0b0101 0 0 d f) ((rows Config.mlcuFn3).map fun r => (r.mask, r.bits)) = true := by
  decide

end Sys2Proof

namespace Sys2Proof.Machine

theorem decode_bitTest_reserved {f d : BitVec 4} (hf : f ∈ [0b0010#4, 0b0110#4]) (hd : d ≠ 0#4) (a b : BitVec 4) :
    ∃ c, decode (patR3 0b0101 a b d f) = .error c := by
  rw [← encR3_eq_pat]
  exact ⟨_, decodeWith_of_apartFrom (encR3_mask_F00FF ..) (bitTest_apartFrom_rows f hf d hd)⟩

/-! ## The words -/

section
variable (k : BitVec 4) (rs0 rs1 rd : RegNum)

theorem btclReg_isWordOf : IsWordOf (patR3 0b0100 rs0 rs1 rd 0b0010) (.btclReg rs0 rs1 rd) :=
  isWordOf_of_encode (Laws.EncodingMatchesTable.btclReg rs0 rs1 rd) rfl (encR3_eq_pat ..)

theorem btclImm_isWordOf : IsWordOf (patR3 0b0100 k rs1 rd 0b0110) (.btclImm k rs1 rd) :=
  isWordOf_of_encode (Laws.EncodingMatchesTable.btclImm k rs1 rd) rfl (encR3_eq_pat ..)

theorem btstReg_isWordOf : IsWordOf (patR3 0b0110 rs0 rs1 rd 0b0010) (.btstReg rs0 rs1 rd) :=
  isWordOf_of_encode (Laws.EncodingMatchesTable.btstReg rs0 rs1 rd) rfl (encR3_eq_pat ..)

theorem btstImm_isWordOf : IsWordOf (patR3 0b0110 k rs1 rd 0b0110) (.btstImm k rs1 rd) :=
  isWordOf_of_encode (Laws.EncodingMatchesTable.btstImm k rs1 rd) rfl (encR3_eq_pat ..)

theorem bttgReg_isWordOf : IsWordOf (patR3 0b0111 rs0 rs1 rd 0b0010) (.bttgReg rs0 rs1 rd) :=
  isWordOf_of_encode (Laws.EncodingMatchesTable.bttgReg rs0 rs1 rd) rfl (encR3_eq_pat ..)

theorem bttgImm_isWordOf : IsWordOf (patR3 0b0111 k rs1 rd 0b0110) (.bttgImm k rs1 rd) :=
  isWordOf_of_encode (Laws.EncodingMatchesTable.bttgImm k rs1 rd) rfl (encR3_eq_pat ..)

theorem bttsReg_isWordOf : IsWordOf (patR3 0b0101 rs0 rs1 0 0b0010) (.bttsReg rs0 rs1) :=
  isWordOf_of_encode (Laws.EncodingMatchesTable.bttsReg rs0 rs1) rfl (encR3_eq_pat ..)

theorem bttsImm_isWordOf : IsWordOf (patR3 0b0101 k rs1 0 0b0110) (.bttsImm k rs1) :=
  isWordOf_of_encode (Laws.EncodingMatchesTable.bttsImm k rs1) rfl (encR3_eq_pat ..)

end

/-! ## The flags of a bit test (R323) -/

theorem bitMask_eq_twoPow (k : BitVec 4) : bitMask k = BitVec.twoPow 16 k.toNat := rfl

/-- The flags of `btts` of bit n of x: N only where bit 15 is tested and is 1, Z where bit n is 0. -/
def afterBitTest (x : Word) (n : Nat) : Flags := ⟨decide (n = 15) && x.getLsbD 15, !x.getLsbD n, false, false⟩

/-- The index is below 16, so the mask has its bit. -/
theorem bitMask_ne_zero (k : BitVec 4) : bitMask k ≠ 0#16 := by
  intro hzero
  have hbit : (bitMask k).getLsbD k.toNat = true := by
    have hlt : k.toNat < 16 := k.isLt
    simp [bitMask_eq_twoPow, hlt]
  rw [hzero, BitVec.getLsbD_zero] at hbit
  exact Bool.false_ne_true hbit

/-- The mask has a sign bit only for index 15. -/
theorem msb_and_bitMask (x : Word) (k : BitVec 4) :
    (x &&& bitMask k).msb = (decide (k.toNat = 15) && x.getLsbD 15) := by
  have hmask : (bitMask k).msb = decide (k.toNat = 15) := by
    have hlt : k.toNat < 16 := k.isLt
    rw [bitMask_eq_twoPow, BitVec.msb_twoPow, decide_eq_true hlt, Bool.true_and]
  rw [BitVec.msb_and, hmask, msb_eq_bit15, Bool.and_comm]

/-- What is left under the mask is the mask or nothing. -/
theorem isZero_and_bitMask (x : Word) (k : BitVec 4) : isZero (x &&& bitMask k) = !x.getLsbD k.toNat := by
  have hand : x &&& bitMask k = if x.getLsbD k.toNat then bitMask k else 0#16 := BitVec.and_twoPow x k.toNat
  rw [hand, isZero]
  cases x.getLsbD k.toNat with
  | false => rfl
  | true => exact beq_false_of_ne (bitMask_ne_zero k)

theorem bitTestFlags_eq (x : Word) (k : BitVec 4) : bitTestFlags (x &&& bitMask k) = afterBitTest x k.toNat := by
  rw [bitTestFlags, msb_and_bitMask, isZero_and_bitMask, afterBitTest]

/-! ## The results -/

section
variable (s : State) (k : BitVec 4) (rs0 rs1 rd : RegNum)

theorem btclImm_puts : Puts (.btclImm k rs1 rd) s rd (s.reg rs1 &&& ~~~ BitVec.twoPow 16 k.toNat) :=
  puts_of_finish rfl (by rw [bitMask_eq_twoPow])

theorem btstImm_puts : Puts (.btstImm k rs1 rd) s rd (s.reg rs1 ||| BitVec.twoPow 16 k.toNat) :=
  puts_of_finish rfl (by rw [bitMask_eq_twoPow])

theorem bttgImm_puts : Puts (.bttgImm k rs1 rd) s rd (s.reg rs1 ^^^ BitVec.twoPow 16 k.toNat) :=
  puts_of_finish rfl (by rw [bitMask_eq_twoPow])

theorem btclReg_puts :
    Puts (.btclReg rs0 rs1 rd) s rd (s.reg rs1 &&& ~~~ BitVec.twoPow 16 (count (s.reg rs0)).toNat) :=
  puts_of_finish rfl (by rw [bitMask_eq_twoPow])

theorem btstReg_puts : Puts (.btstReg rs0 rs1 rd) s rd (s.reg rs1 ||| BitVec.twoPow 16 (count (s.reg rs0)).toNat) :=
  puts_of_finish rfl (by rw [bitMask_eq_twoPow])

theorem bttgReg_puts : Puts (.bttgReg rs0 rs1 rd) s rd (s.reg rs1 ^^^ BitVec.twoPow 16 (count (s.reg rs0)).toNat) :=
  puts_of_finish rfl (by rw [bitMask_eq_twoPow])

theorem bttsReg_tests : Tests (.bttsReg rs0 rs1) s (afterBitTest (s.reg rs1) (count (s.reg rs0)).toNat) :=
  tests_of_finishTest rfl (bitTestFlags_eq ..)

theorem bttsImm_tests : Tests (.bttsImm k rs1) s (afterBitTest (s.reg rs1) k.toNat) :=
  tests_of_finishTest rfl (bitTestFlags_eq ..)

end

/-! ## The obligations -/

/-- Settles O21: the rows of the six forms, and their results by `finish`; the n of the statement is the index the
register forms take from Rs0. -/
theorem bitClearSetToggle : Obligations.BitClearSetToggle := by
  intro s rs0 rs1 rd k n hn
  obtain rfl : n = (count (s.reg rs0)).toNat := hn.trans (toNat_count _).symm
  exact ⟨btclImm_isWordOf k rs1 rd, btclImm_puts s k rs1 rd, btstImm_isWordOf k rs1 rd, btstImm_puts s k rs1 rd,
    bttgImm_isWordOf k rs1 rd, bttgImm_puts s k rs1 rd, btclReg_isWordOf rs0 rs1 rd, btclReg_puts s rs0 rs1 rd,
    btstReg_isWordOf rs0 rs1 rd, btstReg_puts s rs0 rs1 rd, bttgReg_isWordOf rs0 rs1 rd, bttgReg_puts s rs0 rs1 rd⟩

/-- Settles O22: the rows of the two forms, their flags by `finishTest`, and no row for the rest of their patterns. -/
theorem bitTestWritesFlagsOnly : Obligations.BitTestWritesFlagsOnly := by
  intro s rs0 rs1 k n hn
  obtain rfl : n = (count (s.reg rs0)).toNat := hn.trans (toNat_count _).symm
  have hindex : k.toNat = 15 ↔ k = 15#4 := BitVec.toNat_inj (y := 15#4)
  have himm : Tests (.bttsImm k rs1) s
      ⟨decide (k = 15#4) && (s.reg rs1).getLsbD 15, !(s.reg rs1).getLsbD k.toNat, false, false⟩ := by
    simpa only [afterBitTest, hindex] using bttsImm_tests s k rs1
  exact ⟨bttsImm_isWordOf k rs1, himm, bttsReg_isWordOf rs0 rs1, bttsReg_tests s rs0 rs1, fun d hd =>
    ⟨decode_bitTest_reserved (by decide) hd k rs1, decode_bitTest_reserved (by decide) hd rs0 rs1⟩⟩

end Sys2Proof.Machine
end

section
/-! SUPPORT. The multiply instructions (47_multiply.md): the words of `mult`, `mlhu` and `mlhs`, the low word and the
high words of the exact products, and the results. -/

namespace Sys2Proof.Machine

/-! ## The words -/

section
variable (rs0 rs1 rd : RegNum)

theorem mult_isWordOf : IsWordOf (patR3 0b0000 rs0 rs1 rd 0b1110) (.mult rs0 rs1 rd) :=
  isWordOf_of_encode (Laws.EncodingMatchesTable.mult rs0 rs1 rd) rfl (encR3_eq_pat ..)

theorem mlhu_isWordOf : IsWordOf (patR3 0b0010 rs0 rs1 rd 0b1110) (.mlhu rs0 rs1 rd) :=
  isWordOf_of_encode (Laws.EncodingMatchesTable.mlhu rs0 rs1 rd) rfl (encR3_eq_pat ..)

theorem mlhs_isWordOf : IsWordOf (patR3 0b0011 rs0 rs1 rd 0b1110) (.mlhs rs0 rs1 rd) :=
  isWordOf_of_encode (Laws.EncodingMatchesTable.mlhs rs0 rs1 rd) rfl (encR3_eq_pat ..)

end

/-! ## The words of a product (R331 to R333) -/

theorem mul_eq_ofNat (x y : Word) : x * y = BitVec.ofNat 16 (x.toNat * y.toNat) := by
  rw [BitVec.ofNat_mul, BitVec.ofNat_toNat, BitVec.ofNat_toNat, BitVec.setWidth_eq, BitVec.setWidth_eq]

/-- Bits 31:16 are the quotient by 2^16; reducing modulo 2^32 first loses nothing that 16 bits of it hold. -/
theorem highWord_ofNat (n : Nat) : (BitVec.ofNat 32 n).extractLsb' 16 16 = BitVec.ofNat 16 (n / 65536) := by
  apply BitVec.eq_of_toNat_eq
  rw [BitVec.extractLsb'_toNat, BitVec.toNat_ofNat, BitVec.toNat_ofNat, Nat.shiftRight_eq_div_pow]
  omega

/-- The same of a negative number too, where the quotient is rounded down. -/
theorem highWord_ofInt (z : Int) : (BitVec.ofInt 32 z).extractLsb' 16 16 = BitVec.ofInt 16 (z / 65536) := by
  apply BitVec.eq_of_toNat_eq
  rw [BitVec.extractLsb'_toNat, BitVec.toNat_ofInt, BitVec.toNat_ofInt, Nat.shiftRight_eq_div_pow]
  omega

theorem mulHighUnsigned_eq_ofNat (x y : Word) :
    mulHighUnsigned x y = BitVec.ofNat 16 (x.toNat * y.toNat / 65536) := by
  rw [← highWord_ofNat, BitVec.ofNat_mul, BitVec.ofNat_toNat, BitVec.ofNat_toNat, mulHighUnsigned]

/-- The sign extension of a word is the 32-bit form of its signed value. -/
theorem mulHighSigned_eq_ofInt (x y : Word) : mulHighSigned x y = BitVec.ofInt 16 (x.toInt * y.toInt / 65536) := by
  rw [← highWord_ofInt, BitVec.ofInt_mul, mulHighSigned, BitVec.signExtend, BitVec.signExtend]

/-! ## The results -/

section
variable (s : State) (rs0 rs1 rd : RegNum)

theorem mult_puts : Puts (.mult rs0 rs1 rd) s rd (BitVec.ofNat 16 ((s.reg rs1).toNat * (s.reg rs0).toNat)) :=
  puts_of_finish rfl (mul_eq_ofNat ..)

theorem mlhu_puts : Puts (.mlhu rs0 rs1 rd) s rd (BitVec.ofNat 16 ((s.reg rs1).toNat * (s.reg rs0).toNat / 65536)) :=
  puts_of_finish rfl (mulHighUnsigned_eq_ofNat ..)

theorem mlhs_puts : Puts (.mlhs rs0 rs1 rd) s rd (BitVec.ofInt 16 ((s.reg rs1).toInt * (s.reg rs0).toInt / 65536)) :=
  puts_of_finish rfl (mulHighSigned_eq_ofInt ..)

end

/-! ## The obligation -/

/-- Settles O23: the rows of the three instructions, and their results by `finish` with the low word and the high words
of the product. -/
theorem multiplyLowAndHighWords : Obligations.MultiplyLowAndHighWords := fun s rs0 rs1 rd =>
  ⟨mult_isWordOf rs0 rs1 rd, mult_puts s rs0 rs1 rd, mlhu_isWordOf rs0 rs1 rd, mlhu_puts s rs0 rs1 rd,
    mlhs_isWordOf rs0 rs1 rd, mlhs_puts s rs0 rs1 rd⟩

end Sys2Proof.Machine
end

section
/-! SUPPORT. The flow instructions (48_flow.md): the words of the jumps, the returns, the branches and the four
instructions on the interrupt enable, what a jump, a call, a branch and a change of IE leave as it was, and the
results. -/

namespace Sys2Proof.Machine

/-! ## The words of the jumps and the interrupt enable (R341, R342, R350 to R353) -/

theorem jpsr_isWordOf : IsWordOf (patIMP 0b0001) .jpsr :=
  isWordOf_of_encode Laws.EncodingMatchesTable.jpsr rfl (encIMP_eq_pat ..)

theorem jpsrAbs_isWordOf (ia : Word) : IsWordOf (patJ ia) (.jpsrAbs ia) :=
  isWordOf_of_encode (Laws.EncodingMatchesTable.jpsrAbs ia) rfl (encJ_eq_pat ..)

theorem rtsr_isWordOf : IsWordOf (patIMP 0b0010) .rtsr :=
  isWordOf_of_encode Laws.EncodingMatchesTable.rtsr rfl (encIMP_eq_pat ..)

theorem stie_isWordOf : IsWordOf (patIMP 0b1000) .stie :=
  isWordOf_of_encode Laws.EncodingMatchesTable.stie rfl (encIMP_eq_pat ..)

theorem clie_isWordOf : IsWordOf (patIMP 0b1001) .clie :=
  isWordOf_of_encode Laws.EncodingMatchesTable.clie rfl (encIMP_eq_pat ..)

theorem rsie_isWordOf : IsWordOf (patIMP 0b1010) .rsie :=
  isWordOf_of_encode Laws.EncodingMatchesTable.rsie rfl (encIMP_eq_pat ..)

theorem scie_isWordOf : IsWordOf (patIMP 0b1011) .scie :=
  isWordOf_of_encode Laws.EncodingMatchesTable.scie rfl (encIMP_eq_pat ..)

/-! ## The words of the branches (R344, R345, R354 to R361) -/

theorem bral_isWordOf (io : BitVec 14) : IsWordOf (patB14 io) (.bral io) :=
  isWordOf_of_encode (Laws.EncodingMatchesTable.bral io) rfl (encB14_eq_pat ..)

section
variable (io : BitVec 10) (sp : Bool)

/-- The group bit g of R136 as it stands in the low four bits `1 g 01`: 0 for the branches on one flag. -/
theorem encB10_1001_eq_pat (c : BitVec 3) : encB10 io sp c 0b1001 = patB10 io sp c 0 := encB10_eq_pat io sp c 0

/-- 1 for `brlc` and the branches on two or three flags. -/
theorem encB10_1101_eq_pat (c : BitVec 3) : encB10 io sp c 0b1101 = patB10 io sp c 1 := encB10_eq_pat io sp c 1

theorem brlc_isWordOf : IsWordOf (patB10 io false 0b111 1) (.brlc io) :=
  isWordOf_of_encode (Laws.EncodingMatchesTable.brlc io) rfl (encB10_1101_eq_pat ..)

/-- The row of `brlc` fixes bit 7 to 0, and no other row has 111 and 1101 in bits [6:0] (R345). -/
theorem brlc_bit7_apartFrom_rows :
    apartFrom 0xC00FF#20 (encB10 0 true 0b111 0b1101) ((rows Config.mlcuFn3).map fun r => (r.mask, r.bits)) = true := by
  decide

theorem decode_brlc_bit7_reserved : ∃ c, decode (patB10 io true 0b111 1) = .error c := by
  rw [← encB10_1101_eq_pat]
  exact ⟨_, decodeWith_of_apartFrom (encB10_mask_C00FF ..) brlc_bit7_apartFrom_rows⟩

theorem brnc_isWordOf : IsWordOf (patB10 io sp 0b000 0) (.brnc io sp) :=
  isWordOf_of_encode (Laws.EncodingMatchesTable.brnc io sp) rfl (encB10_1001_eq_pat ..)

theorem brcr_isWordOf : IsWordOf (patB10 io sp 0b001 0) (.brcr io sp) :=
  isWordOf_of_encode (Laws.EncodingMatchesTable.brcr io sp) rfl (encB10_1001_eq_pat ..)

theorem brno_isWordOf : IsWordOf (patB10 io sp 0b010 0) (.brno io sp) :=
  isWordOf_of_encode (Laws.EncodingMatchesTable.brno io sp) rfl (encB10_1001_eq_pat ..)

theorem brof_isWordOf : IsWordOf (patB10 io sp 0b011 0) (.brof io sp) :=
  isWordOf_of_encode (Laws.EncodingMatchesTable.brof io sp) rfl (encB10_1001_eq_pat ..)

theorem brnz_isWordOf : IsWordOf (patB10 io sp 0b100 0) (.brnz io sp) :=
  isWordOf_of_encode (Laws.EncodingMatchesTable.brnz io sp) rfl (encB10_1001_eq_pat ..)

theorem brzr_isWordOf : IsWordOf (patB10 io sp 0b101 0) (.brzr io sp) :=
  isWordOf_of_encode (Laws.EncodingMatchesTable.brzr io sp) rfl (encB10_1001_eq_pat ..)

theorem brps_isWordOf : IsWordOf (patB10 io sp 0b110 0) (.brps io sp) :=
  isWordOf_of_encode (Laws.EncodingMatchesTable.brps io sp) rfl (encB10_1001_eq_pat ..)

theorem brng_isWordOf : IsWordOf (patB10 io sp 0b111 0) (.brng io sp) :=
  isWordOf_of_encode (Laws.EncodingMatchesTable.brng io sp) rfl (encB10_1001_eq_pat ..)

end

/-! ## What the operations of the flow instructions leave as it was -/

section
variable (s : State)

theorem setPc_kept (v : Word) : Kept s (s.setPc v) [.pc] := by
  intro p hp
  cases p <;> simp_all [Part.Same]

theorem advance_kept : Kept s s.advance [.pc] := setPc_kept s _

theorem call_kept (target : Word) : Kept s (s.call target) [.sa, .pc] := by
  intro p hp
  cases p <;> simp_all [Part.Same, State.call, State.reg, State.readByte]

theorem setLc_kept (n : BitVec 10) : Kept s { s with lc := n } [.lc] := by
  intro p hp
  cases p <;> simp_all [Part.Same, State.reg, State.readByte]

theorem setIsIe_kept (is ie : Bool) : Kept s { s with csIs := is, csIe := ie } [.csIs, .csIe] := by
  intro p hp
  cases p <;> simp_all [Part.Same, State.reg, State.readByte]

theorem setIe_kept (ie : Bool) : Kept s { s with csIe := ie } [.csIe] := by
  intro p hp
  cases p <;> simp_all [Part.Same, State.reg, State.readByte]

/-! ## Where a branch goes -/

theorem branch_pc_of_taken (io : BitVec 10) : (s.branch true io).pc = s.pc + io.signExtend 16 := rfl

theorem branch_pc_of_not_taken (io : BitVec 10) : (s.branch false io).pc = s.pc + 1#16 := rfl

theorem branch_lc (b : Bool) (io : BitVec 10) : (s.branch b io).lc = s.lc := branch_kept s b io .lc (by simp)

end

/-! ## Jumps, calls and changes of IE by any instruction -/

section
variable {i : Instr} {s : State} {target : Word} {e : Bool}

theorem goesTo_of_setPc (h : exec i s = .next (s.setPc target)) : GoesTo i s target [] :=
  ⟨_, h, setPc_pc s target, setPc_kept s target⟩

/-- `call` saves pc + 1 in SA and goes to the target, and that is all. -/
theorem completes_of_call (h : exec i s = .next (s.call target)) :
    Completes i s fun t => t.sa = s.pc + 1#16 ∧ t.pc = target ∧ Kept s t [.sa, .pc] :=
  ⟨_, h, rfl, rfl, call_kept s target⟩

/-- An instruction that puts `e` in IE and goes on in sequence does nothing else. -/
theorem completes_of_setIe (h : exec i s = .next ({ s with csIe := e } : State).advance) :
    Completes i s fun t => t.csIe = e ∧ InSequence s t ∧ Kept s t [.csIe, .pc] :=
  ⟨_, h, rfl, inSequence_of_succ rfl, (setIe_kept s e).trans (advance_kept _)⟩

end

/-! ## The results -/

section
variable (s : State) (io : BitVec 10) (sp : Bool)

theorem bral_goesTo (io14 : BitVec 14) : GoesTo (.bral io14) s (s.pc + io14.signExtend 16) [] := goesTo_of_setPc rfl

theorem exec_brlc :
    exec (.brlc io) s = .next (({ s with lc := s.lc - 1#10 } : State).branch (s.lc - 1#10 != 0#10) io) := rfl

/-- `brlc` decides by the new LC: it is a count down, which keeps pc, and then a branch, which keeps LC. -/
theorem brlc_completes : Completes (.brlc io) s fun t =>
    t.lc = s.lc - 1#10 ∧ (t.lc ≠ 0#10 → t.pc = s.pc + io.signExtend 16) ∧ (t.lc = 0#10 → InSequence s t) ∧
      Kept s t [.lc, .pc] := by
  refine ⟨_, exec_brlc s io, branch_lc .., fun hne => ?taken, fun heq => ?notTaken,
    (setLc_kept s _).trans (branch_kept _ _ io)⟩
  case taken =>
    rw [branch_lc] at hne
    rw [bne_iff_ne.mpr hne, branch_pc_of_taken]
  case notTaken =>
    rw [branch_lc] at heq
    apply inSequence_of_succ
    rw [bne_eq_false_iff_eq.mpr heq, branch_pc_of_not_taken]

theorem brnc_branches : Branches (.brnc io sp) s (s.cc.c = false) io := branches_of_branch rfl (Bool.not_eq_true' _).to_iff

theorem brcr_branches : Branches (.brcr io sp) s (s.cc.c = true) io := branches_of_branch rfl Iff.rfl

theorem brno_branches : Branches (.brno io sp) s (s.cc.o = false) io := branches_of_branch rfl (Bool.not_eq_true' _).to_iff

theorem brof_branches : Branches (.brof io sp) s (s.cc.o = true) io := branches_of_branch rfl Iff.rfl

theorem brnz_branches : Branches (.brnz io sp) s (s.cc.z = false) io := branches_of_branch rfl (Bool.not_eq_true' _).to_iff

theorem brzr_branches : Branches (.brzr io sp) s (s.cc.z = true) io := branches_of_branch rfl Iff.rfl

theorem brps_branches : Branches (.brps io sp) s (s.cc.n = false) io := branches_of_branch rfl (Bool.not_eq_true' _).to_iff

theorem brng_branches : Branches (.brng io sp) s (s.cc.n = true) io := branches_of_branch rfl Iff.rfl

theorem scie_completes : Completes .scie s fun t =>
    t.csIs = s.csIe ∧ t.csIe = false ∧ InSequence s t ∧ Kept s t [.csIs, .csIe, .pc] :=
  ⟨_, rfl, rfl, rfl, inSequence_of_succ rfl, (setIsIe_kept s s.csIe false).trans (advance_kept _)⟩

end

/-! ## The obligations -/

/-- Settles O39: the rows of the three forms; both forms of `jpsr` are `call`, and `rtsr` sets pc. -/
theorem subroutineCallAndReturn : Obligations.SubroutineCallAndReturn := fun _ ia =>
  ⟨jpsr_isWordOf, completes_of_call rfl, jpsrAbs_isWordOf ia, completes_of_call rfl, rtsr_isWordOf,
    goesTo_of_setPc rfl⟩

/-- Settles O42: the rows of both branches, no row for `brlc` with bit 7 set, and the results of the two. -/
theorem branchAlwaysAndLoopBranch : Obligations.BranchAlwaysAndLoopBranch := fun s io14 io =>
  ⟨bral_isWordOf io14, bral_goesTo s io14, brlc_isWordOf io, decode_brlc_bit7_reserved io, brlc_completes s io⟩

/-- Settles O43: the rows of the eight branches, and their results by `branch` on the flag or its complement. -/
theorem branchesOnOneFlag : Obligations.BranchesOnOneFlag := fun s io sp =>
  ⟨brnc_isWordOf io sp, brnc_branches s io sp, brcr_isWordOf io sp, brcr_branches s io sp,
    brno_isWordOf io sp, brno_branches s io sp, brof_isWordOf io sp, brof_branches s io sp,
    brnz_isWordOf io sp, brnz_branches s io sp, brzr_isWordOf io sp, brzr_branches s io sp,
    brps_isWordOf io sp, brps_branches s io sp, brng_isWordOf io sp, brng_branches s io sp⟩

/-- Settles O46: the rows of the four instructions; `stie`, `clie` and `rsie` only write IE, `scie` saves it first. -/
theorem interruptEnableInstructions : Obligations.InterruptEnableInstructions := fun s =>
  ⟨stie_isWordOf, completes_of_setIe rfl, clie_isWordOf, completes_of_setIe rfl, scie_isWordOf, scie_completes s,
    rsie_isWordOf, completes_of_setIe rfl⟩

end Sys2Proof.Machine
end

section
/-! SUPPORT. Reset (70_reset_and_hazards.md R450): the state that a reset event leaves, the page its pc starts, and the
bus record. -/

namespace Sys2Proof.Machine

/-! ## The state after a reset event -/

/-- Zeros below `v` are `v` shifted past them. -/
theorem append_zero_eq_shiftLeft {n : Nat} (v : BitVec n) (k : Nat) : v ++ 0#k = v.setWidth (n + k) <<< k := by
  rw [BitVec.append_def, BitVec.shiftLeftZeroExtend_eq, BitVec.setWidth'_eq, BitVec.setWidth_zero, BitVec.or_zero]

/-- pc after a reset as a pattern of bits: IRN in the four top bits, zeros below (R450). -/
theorem applyReset_pc (s : State) (irn : BitVec 4) (strq : Bool) : (s.applyReset irn strq).pc = irn ++ 0#12 :=
  (append_zero_eq_shiftLeft irn 12).symm

/-- A reset puts nothing on the bus: no vector is read (R450). -/
@[simp] theorem applyReset_outputs (s : State) (irn : BitVec 4) (strq : Bool) :
    (s.applyReset irn strq).outputs = s.outputs := rfl

/-- A reset event is enabled in every state. -/
theorem step_of_reset {s : State} {es : List HostEvent} {irn : BitVec 4} {strq : Bool}
    (h : s.inputs = .reset irn strq :: es) :
    step s = .next (({ s with inputs := es } : State).applyReset irn strq) :=
  step_of_cons h

/-! ## The obligation -/

/-- Settles O55: the step is the reset event, which sets pc to the page of IRN and records no read. -/
theorem resetStartsAtIrnPage : Obligations.ResetStartsAtIrnPage := fun _ _ irn strq h =>
  ⟨_, step_of_reset h, applyReset_pc _ irn strq, applyReset_outputs _ irn strq⟩

end Sys2Proof.Machine
end

section
/-! SUPPORT. The encoding as a whole (30_encoding.md R120 to R148): every instruction's word decodes back to it, every
row of the opcode table is faithful to the words it covers, and the classes of reserved words. -/

namespace Sys2Proof.Laws.EncodingMatchesTable

/-- The law of every instruction: its word is covered by a row of the table that reads the instruction from it. -/
theorem statement : ∀ i : Instr, Statement i
  | .subfReg rs0 rs1 rd => subfReg rs0 rs1 rd
  | .subfImm c8 rb => subfImm c8 rb
  | .addtReg rs0 rs1 rd => addtReg rs0 rs1 rd
  | .addtImm c8 rb => addtImm c8 rb
  | .subc rs0 rs1 rd => subc rs0 rs1 rd
  | .addc rs0 rs1 rd => addc rs0 rs1 rd
  | .adcf rs rd => adcf rs rd
  | .sbcf rs rd => sbcf rs rd
  | .compReg rs0 rs1 => compReg rs0 rs1
  | .compImm c10 rs1 => compImm c10 rs1
  | .cmpc rs0 rs1 => cmpc rs0 rs1
  | .cpcf rs => cpcf rs
  | .addh hi rb => addh hi rb
  | .negt rs rd => negt rs rd
  | .absl rs rd => absl rs rd
  | .clzr rs rd => clzr rs rd
  | .sxbt rs rd => sxbt rs rd
  | .sxsh rs rd => sxsh rs rd
  | .andbReg rs0 rs1 rd => andbReg rs0 rs1 rd
  | .andbImm c8 rb => andbImm c8 rb
  | .iorbReg rs0 rs1 rd => iorbReg rs0 rs1 rd
  | .iorbImm c8 rb => iorbImm c8 rb
  | .xorbReg rs0 rs1 rd => xorbReg rs0 rs1 rd
  | .xorbImm c8 rb => xorbImm c8 rb
  | .invt rs rd => invt rs rd
  | .shlzReg rs0 rs1 rd => shlzReg rs0 rs1 rd
  | .shlzImm shc rs1 rd => shlzImm shc rs1 rd
  | .shruReg rs0 rs1 rd => shruReg rs0 rs1 rd
  | .shruImm shc rs1 rd => shruImm shc rs1 rd
  | .shlfReg rs0 rs1 rd => shlfReg rs0 rs1 rd
  | .shlfImm shc rs1 rd => shlfImm shc rs1 rd
  | .shrsReg rs0 rs1 rd => shrsReg rs0 rs1 rd
  | .shrsImm shc rs1 rd => shrsImm shc rs1 rd
  | .btclReg rs0 rs1 rd => btclReg rs0 rs1 rd
  | .btclImm bti rs1 rd => btclImm bti rs1 rd
  | .btstReg rs0 rs1 rd => btstReg rs0 rs1 rd
  | .btstImm bti rs1 rd => btstImm bti rs1 rd
  | .bttgReg rs0 rs1 rd => bttgReg rs0 rs1 rd
  | .bttgImm bti rs1 rd => bttgImm bti rs1 rd
  | .bttsReg rs0 rs1 => bttsReg rs0 rs1
  | .bttsImm bti rs1 => bttsImm bti rs1
  | .mult rs0 rs1 rd => mult rs0 rs1 rd
  | .mlhu rs0 rs1 rd => mlhu rs0 rs1 rd
  | .mlhs rs0 rs1 rd => mlhs rs0 rs1 rd
  | .mlcu c8 rb => mlcu c8 rb
  | .moveReg rs rd => moveReg rs rd
  | .moveImm c10 rd => moveImm c10 rd
  | .mvsr c10 rd => mvsr c10 rd
  | .mfsr srs rd => mfsr srs rd
  | .mtsrReg rs srd => mtsrReg rs srd
  | .mtsrImm c10 srd => mtsrImm c10 srd
  | .mfdp rd => mfdp rd
  | .mtdp rs => mtdp rs
  | .ldbtDirect ea rd => ldbtDirect ea rd
  | .ldbtOffset ofs an rd => ldbtOffset ofs an rd
  | .ldbtIndex rx an rd => ldbtIndex rx an rd
  | .ldbtPostInc an rd => ldbtPostInc an rd
  | .ldbtPreDec an rd => ldbtPreDec an rd
  | .ldbtPostUpd an rd => ldbtPostUpd an rd
  | .ldbtPostIncSel an rgs => ldbtPostIncSel an rgs
  | .ldbtPreDecSel an rgs => ldbtPreDecSel an rgs
  | .ldshDirect ea rd => ldshDirect ea rd
  | .ldshOffset ofs an rd => ldshOffset ofs an rd
  | .ldshIndex rx an rd => ldshIndex rx an rd
  | .ldshPostInc an rd => ldshPostInc an rd
  | .ldshPreDec an rd => ldshPreDec an rd
  | .ldshPostUpd an rd => ldshPostUpd an rd
  | .ldshPostIncSel an rgs => ldshPostIncSel an rgs
  | .ldshPreDecSel an rgs => ldshPreDecSel an rgs
  | .stbtDirect rs ea => stbtDirect rs ea
  | .stbtOffset rs ofs an => stbtOffset rs ofs an
  | .stbtIndex rs rx an => stbtIndex rs rx an
  | .stbtPostInc rs an => stbtPostInc rs an
  | .stbtPreDec rs an => stbtPreDec rs an
  | .stbtPostUpd rs an => stbtPostUpd rs an
  | .stbtPostIncSel rgs an => stbtPostIncSel rgs an
  | .stbtPreDecSel rgs an => stbtPreDecSel rgs an
  | .stshDirect rs ea => stshDirect rs ea
  | .stshOffset rs ofs an => stshOffset rs ofs an
  | .stshIndex rs rx an => stshIndex rs rx an
  | .stshPostInc rs an => stshPostInc rs an
  | .stshPreDec rs an => stshPreDec rs an
  | .stshPostUpd rs an => stshPostUpd rs an
  | .stshPostIncSel rgs an => stshPostIncSel rgs an
  | .stshPreDecSel rgs an => stshPreDecSel rgs an
  | .jump => jump
  | .jpsrAbs ia => jpsrAbs ia
  | .jpsr => jpsr
  | .rtsr => rtsr
  | .rtir => rtir
  | .bral io => bral io
  | .brlc io => brlc io
  | .brnc io sp => brnc io sp
  | .brcr io sp => brcr io sp
  | .brno io sp => brno io sp
  | .brof io sp => brof io sp
  | .brnz io sp => brnz io sp
  | .brzr io sp => brzr io sp
  | .brps io sp => brps io sp
  | .brng io sp => brng io sp
  | .brls io sp => brls io sp
  | .brhi io sp => brhi io sp
  | .brlo io sp => brlo io sp
  | .brge io sp => brge io sp
  | .brle io sp => brle io sp
  | .brgt io sp => brgt io sp
  | .stie => stie
  | .clie => clie
  | .scie => scie
  | .rsie => rsie
  | .svpc => svpc
  | .rspc => rspc
  | .stop => stop

end Sys2Proof.Laws.EncodingMatchesTable

namespace Sys2Proof

/-! ## From an instruction to its word and back (R122, R138, R140) -/

theorem decodeWith_of_encodeWith {p : Option Config.MlcuFn3} {i : Instr} {w : Opcode} (h : encodeWith p i = some w) :
    decodeWith p w = .ok i := by
  obtain ⟨r, hmem, hcovers, hbuild⟩ := Laws.EncodingMatchesTable.statement i p w h
  exact (decodeWith_of_row hmem hcovers).trans (congrArg Except.ok hbuild)

/-- `mlcu` is the only instruction that can be without a word, and it is not well-formed then (R139). -/
theorem encode_of_wellFormed {i : Instr} (h : i.wellFormed = true) : ∃ w : Opcode, encode i = some w := by
  cases i
  case mlcu => exact absurd h Bool.false_ne_true
  all_goals exact ⟨_, rfl⟩

/-! ## From a word to its instruction and back: one lemma per format (R127 to R137) -/

/-- Every word the row covers is the word of the instruction that the row reads from it. -/
def Row.Faithful (p : Option Config.MlcuFn3) (r : Row) : Prop :=
  ∀ w : Opcode, r.covers w = true → encodeWith p (r.build w) = some w

section
variable {p : Option Config.MlcuFn3} {bits : Opcode} {build : Opcode → Instr}

/-- The encoder takes the fixed bits from the match value and all the others from the word, so the word comes back. -/
theorem Row.faithful_of_fields {mask : Opcode} {enc : Opcode → Opcode}
    (henc : ∀ w, encodeWith p (build w) = some (enc w)) (hfields : ∀ w, enc w = bits ||| (w &&& ~~~mask)) :
    Row.Faithful p (row mask bits build) := by
  intro w hw
  have hfixed : w &&& mask = bits := by simpa [Row.covers, row] using hw
  exact (henc w).trans (congrArg some ((hfields w).trans (rebuild hfixed)))

theorem Row.Faithful.R3 {o f : BitVec 4}
    (henc : ∀ w : Opcode, encodeWith p (build w) = some (encR3 o w.fA w.fB w.fD f))
    (hbits : encR3 o 0 0 0 f = bits := by decide) : Row.Faithful p (row 0xF000F bits build) :=
  Row.faithful_of_fields henc fun w => hbits ▸ encR3_fields_F000F w o f

theorem Row.Faithful.R3_fixedD {o d f : BitVec 4}
    (henc : ∀ w : Opcode, encodeWith p (build w) = some (encR3 o w.fA w.fB d f))
    (hbits : encR3 o 0 0 d f = bits := by decide) : Row.Faithful p (row 0xF00FF bits build) :=
  Row.faithful_of_fields henc fun w => hbits ▸ encR3_fields_F00FF w o d f

theorem Row.Faithful.R2 {o : BitVec 8}
    (henc : ∀ w : Opcode, encodeWith p (build w) = some (encR2 o w.fB w.fD))
    (hbits : encR2 o 0 0 = bits := by decide) : Row.Faithful p (row 0xFF00F bits build) :=
  Row.faithful_of_fields henc fun w => hbits ▸ encR2_fields_FF00F w o

theorem Row.Faithful.R2_fixedD {o : BitVec 8} {d : BitVec 4}
    (henc : ∀ w : Opcode, encodeWith p (build w) = some (encR2 o w.fB d))
    (hbits : encR2 o 0 d = bits := by decide) : Row.Faithful p (row 0xFF0FF bits build) :=
  Row.faithful_of_fields henc fun w => hbits ▸ encR2_fields_FF0FF w o d

theorem Row.Faithful.R2_fixedS {o : BitVec 8} {s : BitVec 4}
    (henc : ∀ w : Opcode, encodeWith p (build w) = some (encR2 o s w.fD))
    (hbits : encR2 o s 0 = bits := by decide) : Row.Faithful p (row 0xFFF0F bits build) :=
  Row.faithful_of_fields henc fun w => hbits ▸ encR2_fields_FFF0F w o s

theorem Row.Faithful.I8 {f : BitVec 3}
    (henc : ∀ w : Opcode, encodeWith p (build w) = some (encI8 w.fC8 f w.fD))
    (hbits : encI8 0 f 0 = bits := by decide) : Row.Faithful p (row 0x8070F bits build) :=
  Row.faithful_of_fields henc fun w => hbits ▸ encI8_fields_8070F w f

theorem Row.Faithful.I10 {e : BitVec 1} {f : BitVec 4}
    (henc : ∀ w : Opcode, encodeWith p (build w) = some (encI10 w.fC10 e w.fD f))
    (hbits : encI10 0 e 0 f = bits := by decide) : Row.Faithful p (row 0x8010F bits build) :=
  Row.faithful_of_fields henc fun w => hbits ▸ encI10_fields_8010F w e f

theorem Row.Faithful.MD {f : BitVec 4}
    (henc : ∀ w : Opcode, encodeWith p (build w) = some (encMD w.fDa11 w.fD f))
    (hbits : encMD 0 0 f = bits := by decide) : Row.Faithful p (row 0x8000F bits build) :=
  Row.faithful_of_fields henc fun w => hbits ▸ encMD_fields_8000F w f

theorem Row.Faithful.MO {f : BitVec 4}
    (henc : ∀ w : Opcode, encodeWith p (build w) = some (encMO w.fC8 w.fAn w.fD f))
    (hbits : encMO 0 0 0 f = bits := by decide) : Row.Faithful p (row 0x8000F bits build) :=
  Row.faithful_of_fields henc fun w => hbits ▸ encMO_fields_8000F w f

theorem Row.Faithful.MX {o f : BitVec 4} {b : BitVec 1}
    (henc : ∀ w : Opcode, encodeWith p (build w) = some (encMA o w.fA b w.fAn w.fD f))
    (hbits : encMA o 0 b 0 0 f = bits := by decide) : Row.Faithful p (row 0xF080F bits build) :=
  Row.faithful_of_fields henc fun w => hbits ▸ encMA_fields_F080F w o b f

theorem Row.Faithful.MA {o x f : BitVec 4} {b : BitVec 1}
    (henc : ∀ w : Opcode, encodeWith p (build w) = some (encMA o x b w.fAn w.fD f))
    (hbits : encMA o x b 0 0 f = bits := by decide) : Row.Faithful p (row 0xFF80F bits build) :=
  Row.faithful_of_fields henc fun w => hbits ▸ encMA_fields_FF80F w o x b f

theorem Row.Faithful.MG {b : BitVec 1} {f : BitVec 4}
    (henc : ∀ w : Opcode, encodeWith p (build w) = some (encMG b w.fAn w.fRgs f))
    (hbits : encMG b 0 0 f = bits := by decide) : Row.Faithful p (row 0xC080F bits build) :=
  Row.faithful_of_fields henc fun w => hbits ▸ encMG_fields_C080F w b f

theorem Row.Faithful.J
    (henc : ∀ w : Opcode, encodeWith p (build w) = some (encJ w.fIa16))
    (hbits : encJ 0 = bits := by decide) : Row.Faithful p (row 0xC0003 bits build) :=
  Row.faithful_of_fields henc fun w => hbits ▸ encJ_fields_C0003 w

theorem Row.Faithful.B14
    (henc : ∀ w : Opcode, encodeWith p (build w) = some (encB14 w.fIo14))
    (hbits : encB14 0 = bits := by decide) : Row.Faithful p (row 0xC000F bits build) :=
  Row.faithful_of_fields henc fun w => hbits ▸ encB14_fields_C000F w

theorem Row.Faithful.B10 {c : BitVec 3} {f : BitVec 4}
    (henc : ∀ w : Opcode, encodeWith p (build w) = some (encB10 w.fIo10 w.fS c f))
    (hbits : encB10 0 false c f = bits := by decide) : Row.Faithful p (row 0xC007F bits build) :=
  Row.faithful_of_fields henc fun w => hbits ▸ encB10_fields_C007F w c f

theorem Row.Faithful.B10_fixedS {s : Bool} {c : BitVec 3} {f : BitVec 4}
    (henc : ∀ w : Opcode, encodeWith p (build w) = some (encB10 w.fIo10 s c f))
    (hbits : encB10 0 s c f = bits := by decide) : Row.Faithful p (row 0xC00FF bits build) :=
  Row.faithful_of_fields henc fun w => hbits ▸ encB10_fields_C00FF w s c f

/-- An implied instruction fixes every bit of its word (R137). -/
theorem Row.Faithful.IMP {i : Instr} (henc : encodeWith p i = some bits) :
    Row.Faithful p (row 0xFFFFF bits fun _ => i) := by
  intro w hw
  have hword : w = bits := by
    have hall : w &&& BitVec.allOnes 20 = bits := by simpa [Row.covers, row] using hw
    rwa [BitVec.and_allOnes] at hall
  exact henc.trans (congrArg some hword.symm)

/-! ## The rows of the table -/

theorem arithmeticRows_faithful : ∀ r ∈ arithmeticRows, r.Faithful p := by
  simp only [arithmeticRows, List.forall_mem_cons]
  exact ⟨.R3 fun _ => rfl, .I8 fun _ => rfl, .R3 fun _ => rfl, .I8 fun _ => rfl, .R3 fun _ => rfl, .R3 fun _ => rfl,
    .R2 fun _ => rfl, .R2 fun _ => rfl, .R2 fun _ => rfl, .I10 fun _ => rfl, .R2 fun _ => rfl,
    .R2_fixedD fun _ => rfl, .I8 fun _ => rfl, .R2 fun _ => rfl, .R2 fun _ => rfl, .R2 fun _ => rfl,
    .R2 fun _ => rfl, .R2 fun _ => rfl, List.forall_mem_nil _⟩

theorem logicShiftRows_faithful : ∀ r ∈ logicShiftRows, r.Faithful p := by
  simp only [logicShiftRows, List.forall_mem_cons]
  exact ⟨.R3 fun _ => rfl, .I8 fun _ => rfl, .R3 fun _ => rfl, .I8 fun _ => rfl, .R3 fun _ => rfl, .I8 fun _ => rfl,
    .R2 fun _ => rfl, .R3 fun _ => rfl, .R3 fun _ => rfl, .R3 fun _ => rfl, .R3 fun _ => rfl, .R3 fun _ => rfl,
    .R3 fun _ => rfl, .R3 fun _ => rfl, .R3 fun _ => rfl, .R3 fun _ => rfl, .R3 fun _ => rfl, .R3 fun _ => rfl,
    .R3 fun _ => rfl, .R3 fun _ => rfl, .R3 fun _ => rfl, .R3_fixedD fun _ => rfl, .R3_fixedD fun _ => rfl,
    .R3 fun _ => rfl, .R3 fun _ => rfl, .R3 fun _ => rfl, List.forall_mem_nil _⟩

theorem moveRows_faithful : ∀ r ∈ moveRows, r.Faithful p := by
  simp only [moveRows, List.forall_mem_cons]
  exact ⟨.R2 fun _ => rfl, .I10 fun _ => rfl, .I10 fun _ => rfl, .R2 fun _ => rfl, .R2 fun _ => rfl,
    .I10 fun _ => rfl, .R2_fixedS fun _ => rfl, .R2_fixedD fun _ => rfl, List.forall_mem_nil _⟩

theorem loadRows_faithful : ∀ r ∈ loadRows, r.Faithful p := by
  simp only [loadRows, List.forall_mem_cons]
  exact ⟨.MD fun _ => rfl, .MO fun _ => rfl, .MX fun _ => rfl, .MA fun _ => rfl, .MA fun _ => rfl, .MA fun _ => rfl,
    .MG fun _ => rfl, .MG fun _ => rfl, .MD fun _ => rfl, .MO fun _ => rfl, .MX fun _ => rfl, .MA fun _ => rfl,
    .MA fun _ => rfl, .MA fun _ => rfl, .MG fun _ => rfl, .MG fun _ => rfl, List.forall_mem_nil _⟩

theorem storeRows_faithful : ∀ r ∈ storeRows, r.Faithful p := by
  simp only [storeRows, List.forall_mem_cons]
  exact ⟨.MD fun _ => rfl, .MO fun _ => rfl, .MX fun _ => rfl, .MA fun _ => rfl, .MA fun _ => rfl, .MA fun _ => rfl,
    .MG fun _ => rfl, .MG fun _ => rfl, .MD fun _ => rfl, .MO fun _ => rfl, .MX fun _ => rfl, .MA fun _ => rfl,
    .MA fun _ => rfl, .MA fun _ => rfl, .MG fun _ => rfl, .MG fun _ => rfl, List.forall_mem_nil _⟩

theorem flowRows_faithful : ∀ r ∈ flowRows, r.Faithful p := by
  simp only [flowRows, List.forall_mem_cons]
  exact ⟨.IMP rfl, .J fun _ => rfl, .IMP rfl, .IMP rfl, .IMP rfl, .B14 fun _ => rfl, .B10_fixedS fun _ => rfl,
    .B10 fun _ => rfl, .B10 fun _ => rfl, .B10 fun _ => rfl, .B10 fun _ => rfl, .B10 fun _ => rfl,
    .B10 fun _ => rfl, .B10 fun _ => rfl, .B10 fun _ => rfl, .B10 fun _ => rfl, .B10 fun _ => rfl,
    .B10 fun _ => rfl, .B10 fun _ => rfl, .B10 fun _ => rfl, .B10 fun _ => rfl, .IMP rfl, .IMP rfl, .IMP rfl,
    .IMP rfl, List.forall_mem_nil _⟩

theorem debugRows_faithful : ∀ r ∈ debugRows, r.Faithful p := by
  simp only [debugRows, List.forall_mem_cons]
  exact ⟨.IMP rfl, .IMP rfl, .IMP rfl, List.forall_mem_nil _⟩

/-- The code of `mlcu` stands where the other operations of format I8 have theirs (R139). -/
theorem mlcuRow_faithful (c : Config.MlcuFn3) : (mlcuRow c).Faithful (some c) :=
  .I8 (fun _ => rfl) (by cases c <;> decide)

theorem codedRows_faithful : ∀ r ∈ codedRows, r.Faithful p := by
  simp only [codedRows, List.forall_mem_append]
  exact ⟨⟨⟨⟨⟨⟨arithmeticRows_faithful, logicShiftRows_faithful⟩, moveRows_faithful⟩, loadRows_faithful⟩,
    storeRows_faithful⟩, flowRows_faithful⟩, debugRows_faithful⟩

theorem rows_faithful : ∀ r ∈ rows p, r.Faithful p := by
  cases p with
  | none => simpa [rows] using codedRows_faithful
  | some c =>
    simp only [rows, List.forall_mem_append]
    exact ⟨codedRows_faithful, by simpa using mlcuRow_faithful c⟩

theorem encodeWith_of_decodeWith {w : Opcode} {i : Instr} (h : decodeWith p w = .ok i) : encodeWith p i = some w := by
  obtain ⟨r, hmem, hcovers, rfl⟩ := row_of_decodeWith h
  exact rows_faithful r hmem w hcovers

end

/-! ## The rows as a whole (R120, R122) -/

/-- Of rows apart from each other at most one covers a word: a second one would differ in a fixed bit. -/
theorem length_filter_covers_le_one {l : List Row} (hl : l.Pairwise Row.apart) (w : Opcode) :
    (l.filter (·.covers w)).length ≤ 1 := by
  have hpair := hl.sublist (List.filter_sublist (p := (·.covers w)))
  have hcovers : ∀ r ∈ l.filter (·.covers w), r.covers w = true := fun r hr => (List.mem_filter.mp hr).2
  generalize l.filter (·.covers w) = covering at hpair hcovers ⊢
  match covering, hpair, hcovers with
  | [], _, _ => exact Nat.zero_le 1
  | [_], _, _ => exact le_rfl
  | r :: q :: _, hpair, hcovers =>
    have hrq : r.apart q := (List.pairwise_cons.mp hpair).1 q (by simp)
    exact (Row.not_both hrq (hcovers r (by simp)) (hcovers q (by simp))).elim

/-! ## Reserved words (R142) -/

/-- The bits of `w` under the mask `m` are those of `b`. -/
def Fixes (w m b : Opcode) : Prop := w &&& m = b

/-- The mask of the field of `n` bits from bit `lo` upward. -/
def fieldMask (lo n : Nat) : Opcode := place 20 lo (BitVec.allOnes n)

theorem fixes_field {w : Opcode} {lo n : Nat} {v : BitVec n} (h : w.extractLsb' lo n = v) :
    Fixes w (fieldMask lo n) (place 20 lo v) := by
  subst h
  apply BitVec.eq_of_getLsbD_eq
  intro i hi
  simp only [fieldMask, place, BitVec.getLsbD_and, BitVec.getLsbD_shiftLeft, BitVec.getLsbD_setWidth,
    BitVec.getLsbD_allOnes, BitVec.getLsbD_extractLsb']
  by_cases hlo : i < lo
  · simp [hlo]
  · have hsum : lo + (i - lo) = i := by omega
    by_cases hfield : i - lo < n <;> simp [hlo, hfield, hsum, hi, Bool.and_comm]

theorem fixes_bit {w : Opcode} {k : Nat} (h : w.getLsbD k = true) : Fixes w (fieldMask k 1) (place 20 k 1#1) :=
  fixes_field (BitVec.eq_of_getLsbD_eq fun i hi => by
    obtain rfl : i = 0 := by omega
    simp [h])

theorem Fixes.and {w m b m' b' : Opcode} (h : Fixes w m b) (h' : Fixes w m' b') : Fixes w (m ||| m') (b ||| b') := by
  subst h h'
  apply BitVec.eq_of_getLsbD_eq
  intro i hi
  simp only [BitVec.getLsbD_and, BitVec.getLsbD_or, Bool.and_or_distrib_left]

/-- No row of the table has words with the bits `b` under the mask `m`. -/
def unclaimed (m b : Opcode) : Bool := apartFrom m b ((rows Config.mlcuFn3).map fun r => (r.mask, r.bits))

theorem Fixes.reserved {w m b : Opcode} (h : Fixes w m b) (hu : unclaimed m b = true) :
    ∃ c : ReservedClass, decode w = .error c :=
  ⟨_, decodeWith_of_apartFrom h hu⟩

/-! One lemma per class of R142; where a field may hold several values, no row has any of them. -/

section
variable {w : Opcode}

theorem reserved_low11 (hlow : w.extractLsb' 0 2 = 0b11#2) : ∃ c : ReservedClass, decode w = .error c :=
  (fixes_field hlow).reserved (by decide)

/-- The indexed mode (1000) has bit 11 clear, 1001 is no mode, and the modes on An alone (1010, 1011) have bits [15:12]
clear, 1011 bit 11 too. -/
theorem reserved_loadStoreMode (hlow : w.extractLsb' 0 2 = 0b00#2)
    (h : (w.extractLsb' 16 4 = 0b1000#4 ∧ w.getLsbD 11 = true) ∨ w.extractLsb' 16 4 = 0b1001#4 ∨
      (w.extractLsb' 16 4 = 0b1010#4 ∧ w.extractLsb' 12 4 ≠ 0#4) ∨
      (w.extractLsb' 16 4 = 0b1011#4 ∧ (w.extractLsb' 12 4 ≠ 0#4 ∨ w.getLsbD 11 = true))) :
    ∃ c : ReservedClass, decode w = .error c := by
  have hsub : ∀ op ∈ [0b1010#4, 0b1011#4], ∀ v : BitVec 4, v ≠ 0#4 →
      unclaimed (fieldMask 0 2 ||| fieldMask 16 4 ||| fieldMask 12 4)
        (place 20 0 0b00#2 ||| place 20 16 op ||| place 20 12 v) = true := by decide
  rcases h with ⟨hop, hbit⟩ | hop | ⟨hop, hne⟩ | ⟨hop, hne | hbit⟩
  · exact ((fixes_field hlow).and (fixes_field hop) |>.and (fixes_bit hbit)).reserved (by decide)
  · exact ((fixes_field hlow).and (fixes_field hop)).reserved (by decide)
  · exact ((fixes_field hlow).and (fixes_field hop) |>.and (fixes_field rfl)).reserved (hsub _ (by decide) _ hne)
  · exact ((fixes_field hlow).and (fixes_field hop) |>.and (fixes_field rfl)).reserved (hsub _ (by decide) _ hne)
  · exact ((fixes_field hlow).and (fixes_field hop) |>.and (fixes_bit hbit)).reserved (by decide)

/-- The implied instructions have bits [17:8] clear, and five of the sixteen selectors name none (R137). -/
theorem reserved_implied (htop : w.extractLsb' 18 2 = 0b11#2) (hlow : w.extractLsb' 0 4 = 0b0101#4)
    (h : w.extractLsb' 8 10 ≠ 0#10 ∨
      w.extractLsb' 4 4 ∈ [0b0101#4, 0b1100#4, 0b1101#4, 0b1110#4, 0b1111#4]) :
    ∃ c : ReservedClass, decode w = .error c := by
  have hfixed := (fixes_field htop).and (fixes_field hlow)
  rcases h with hmid | hsel
  · obtain ⟨k, hk, hbit⟩ : ∃ k < 10, w.getLsbD (8 + k) = true := by
      by_contra hclear
      refine hmid (BitVec.eq_of_getLsbD_eq fun k hk => ?_)
      simpa [hk] using fun hbit => hclear ⟨k, hk, hbit⟩
    have hany : ∀ k < 10, unclaimed (fieldMask 18 2 ||| fieldMask 0 4 ||| fieldMask (8 + k) 1)
        (place 20 18 0b11#2 ||| place 20 0 0b0101#4 ||| place 20 (8 + k) 1#1) = true := by decide
    exact (hfixed.and (fixes_bit hbit)).reserved (hany k hk)
  · have hany : ∀ v ∈ [0b0101#4, 0b1100#4, 0b1101#4, 0b1110#4, 0b1111#4],
        unclaimed (fieldMask 18 2 ||| fieldMask 0 4 ||| fieldMask 4 4)
          (place 20 18 0b11#2 ||| place 20 0 0b0101#4 ||| place 20 4 v) = true := by decide
    exact (hfixed.and (fixes_field rfl)).reserved (hany _ hsel)

/-- The condition code 010 names no branch on combined flags, and `brlc` (111) has bit 7 clear. -/
theorem reserved_branch (htop : w.extractLsb' 18 2 = 0b11#2)
    (h : w.extractLsb' 0 7 = 0b0101101#7 ∨ w.extractLsb' 0 8 = 0b11111101#8) :
    ∃ c : ReservedClass, decode w = .error c := by
  rcases h with hcode | hcode
  · exact ((fixes_field htop).and (fixes_field hcode)).reserved (by decide)
  · exact ((fixes_field htop).and (fixes_field hcode)).reserved (by decide)

theorem reserved_arithmeticLogic (hlow : w.extractLsb' 0 4 = 0b1010#4) (hop : w.extractLsb' 16 4 = 0b0100#4) :
    ∃ c : ReservedClass, decode w = .error c :=
  ((fixes_field hlow).and (fixes_field hop)).reserved (by decide)

/-- `comp` with a constant (1010) and `mtsr` with one (1110) have bit 8 clear. -/
theorem reserved_constant10 (hlow : w.extractLsb' 0 4 ∈ [0b1010#4, 0b1110#4]) (h19 : w.getLsbD 19 = true)
    (h8 : w.getLsbD 8 = true) : ∃ c : ReservedClass, decode w = .error c := by
  have hany : ∀ v ∈ [0b1010#4, 0b1110#4], unclaimed (fieldMask 0 4 ||| fieldMask 19 1 ||| fieldMask 8 1)
      (place 20 0 v ||| place 20 19 1#1 ||| place 20 8 1#1) = true := by decide
  exact ((fixes_field rfl).and (fixes_bit h19) |>.and (fixes_bit h8)).reserved (hany _ hlow)

/-- Operations 0001, 0110 and 0111 are no multiply; under 0100 and 0101 sixteen of the second four bits name no
two-register operation, and `cpcf`, `mtdp` and `mfdp` have their unused field clear. -/
theorem reserved_twoRegister (hlow : w.extractLsb' 0 4 = 0b1110#4)
    (h : w.extractLsb' 16 4 ∈ [0b0001#4, 0b0110#4, 0b0111#4] ∨
      (w.extractLsb' 16 4 = 0b0100#4 ∧
        w.extractLsb' 12 4 ∈ [0b0001#4, 0b1011#4, 0b1100#4, 0b1101#4, 0b1110#4, 0b1111#4]) ∨
      (w.extractLsb' 16 4 = 0b0101#4 ∧ w.extractLsb' 12 4 ∈ [0b0100#4, 0b0101#4, 0b0110#4, 0b0111#4, 0b1010#4,
        0b1011#4, 0b1100#4, 0b1101#4, 0b1110#4, 0b1111#4]) ∨
      (w.extractLsb' 16 4 = 0b0100#4 ∧ w.extractLsb' 12 4 = 0b1010#4 ∧ w.extractLsb' 4 4 ≠ 0#4) ∨
      (w.extractLsb' 16 4 = 0b0101#4 ∧ w.extractLsb' 12 4 = 0b0001#4 ∧ w.extractLsb' 4 4 ≠ 0#4) ∨
      (w.extractLsb' 16 4 = 0b0101#4 ∧ w.extractLsb' 12 4 = 0b0000#4 ∧ w.extractLsb' 8 4 ≠ 0#4)) :
    ∃ c : ReservedClass, decode w = .error c := by
  rcases h with hop | ⟨hop, hsub⟩ | ⟨hop, hsub⟩ | ⟨hop, hsub, hne⟩ | ⟨hop, hsub, hne⟩ | ⟨hop, hsub, hne⟩
  · have hany : ∀ v ∈ [0b0001#4, 0b0110#4, 0b0111#4], unclaimed (fieldMask 0 4 ||| fieldMask 16 4)
        (place 20 0 0b1110#4 ||| place 20 16 v) = true := by decide
    exact ((fixes_field hlow).and (fixes_field rfl)).reserved (hany _ hop)
  · have hany : ∀ v ∈ [0b0001#4, 0b1011#4, 0b1100#4, 0b1101#4, 0b1110#4, 0b1111#4],
        unclaimed (fieldMask 0 4 ||| fieldMask 16 4 ||| fieldMask 12 4)
          (place 20 0 0b1110#4 ||| place 20 16 0b0100#4 ||| place 20 12 v) = true := by decide
    exact ((fixes_field hlow).and (fixes_field hop) |>.and (fixes_field rfl)).reserved (hany _ hsub)
  · have hany : ∀ v ∈ [0b0100#4, 0b0101#4, 0b0110#4, 0b0111#4, 0b1010#4, 0b1011#4, 0b1100#4, 0b1101#4, 0b1110#4,
          0b1111#4],
        unclaimed (fieldMask 0 4 ||| fieldMask 16 4 ||| fieldMask 12 4)
          (place 20 0 0b1110#4 ||| place 20 16 0b0101#4 ||| place 20 12 v) = true := by decide
    exact ((fixes_field hlow).and (fixes_field hop) |>.and (fixes_field rfl)).reserved (hany _ hsub)
  · have hany : ∀ v : BitVec 4, v ≠ 0#4 →
        unclaimed (fieldMask 0 4 ||| fieldMask 16 4 ||| fieldMask 12 4 ||| fieldMask 4 4)
          (place 20 0 0b1110#4 ||| place 20 16 0b0100#4 ||| place 20 12 0b1010#4 ||| place 20 4 v) = true := by decide
    exact (((fixes_field hlow).and (fixes_field hop)).and (fixes_field hsub) |>.and (fixes_field rfl)).reserved
      (hany _ hne)
  · have hany : ∀ v : BitVec 4, v ≠ 0#4 →
        unclaimed (fieldMask 0 4 ||| fieldMask 16 4 ||| fieldMask 12 4 ||| fieldMask 4 4)
          (place 20 0 0b1110#4 ||| place 20 16 0b0101#4 ||| place 20 12 0b0001#4 ||| place 20 4 v) = true := by decide
    exact (((fixes_field hlow).and (fixes_field hop)).and (fixes_field hsub) |>.and (fixes_field rfl)).reserved
      (hany _ hne)
  · have hany : ∀ v : BitVec 4, v ≠ 0#4 →
        unclaimed (fieldMask 0 4 ||| fieldMask 16 4 ||| fieldMask 12 4 ||| fieldMask 8 4)
          (place 20 0 0b1110#4 ||| place 20 16 0b0101#4 ||| place 20 12 0b0000#4 ||| place 20 8 v) = true := by decide
    exact (((fixes_field hlow).and (fixes_field hop)).and (fixes_field hsub) |>.and (fixes_field rfl)).reserved
      (hany _ hne)

/-- The two candidate codes of `mlcu`, which has no row while the parameter is unset (R139). -/
theorem reserved_constant8 (hlow : w.extractLsb' 0 4 = 0b0010#4) (h19 : w.getLsbD 19 = true)
    (hop : w.extractLsb' 8 3 ∈ [0b010#3, 0b100#3]) : ∃ c : ReservedClass, decode w = .error c := by
  have hany : ∀ v ∈ [0b010#3, 0b100#3], unclaimed (fieldMask 0 4 ||| fieldMask 19 1 ||| fieldMask 8 3)
      (place 20 0 0b0010#4 ||| place 20 19 1#1 ||| place 20 8 v) = true := by decide
  exact ((fixes_field hlow).and (fixes_bit h19) |>.and (fixes_field rfl)).reserved (hany _ hop)

theorem reserved_bitTest (hlow : w.extractLsb' 0 4 ∈ [0b0010#4, 0b0110#4]) (hop : w.extractLsb' 16 4 = 0b0101#4)
    (hne : w.extractLsb' 4 4 ≠ 0#4) : ∃ c : ReservedClass, decode w = .error c := by
  have hany : ∀ f ∈ [0b0010#4, 0b0110#4], ∀ d : BitVec 4, d ≠ 0#4 →
      unclaimed (fieldMask 0 4 ||| fieldMask 16 4 ||| fieldMask 4 4)
        (place 20 0 f ||| place 20 16 0b0101#4 ||| place 20 4 d) = true := by decide
  exact ((fixes_field rfl).and (fixes_field hop) |>.and (fixes_field rfl)).reserved (hany _ hlow _ hne)

end

end Sys2Proof

namespace Sys2Proof.Machine

/-! ## The words of the loads and stores (R132) -/

section
variable (r x : RegNum) (n : AddrNum) (e : BitVec 11) (o : BitVec 8) (g : BitVec 10)

/-- The low four bits of a load or store, LS and the two bits of the mode, in one. -/
theorem isWordOf_of_encMD {i : Instr} {ls : BitVec 2} (henc : encode i = some (encMD e r (ls ++ 0b00#2))) :
    IsWordOf (patMD e r ls) i :=
  isWordOf_of_encode (Laws.EncodingMatchesTable.statement i) henc (encMD_eq_pat ..)

theorem isWordOf_of_encMO {i : Instr} {ls : BitVec 2} (henc : encode i = some (encMO o n r (ls ++ 0b01#2))) :
    IsWordOf (patMO o n r ls) i :=
  isWordOf_of_encode (Laws.EncodingMatchesTable.statement i) henc (encMO_eq_pat ..)

theorem isWordOf_of_encMA {i : Instr} {op a : BitVec 4} {b : BitVec 1} {ls : BitVec 2}
    (henc : encode i = some (encMA op a b n r (ls ++ 0b00#2))) : IsWordOf (patMA op a b n r ls) i :=
  isWordOf_of_encode (Laws.EncodingMatchesTable.statement i) henc (encMA_eq_pat ..)

theorem isWordOf_of_encMG {i : Instr} {b : BitVec 1} {ls : BitVec 2}
    (henc : encode i = some (encMG b n g (ls ++ 0b00#2))) : IsWordOf (patMG g b n ls) i :=
  isWordOf_of_encode (Laws.EncodingMatchesTable.statement i) henc (encMG_eq_pat ..)

end

/-! ## The obligations -/

/-- Settles O2: the row of every instruction reads it back from its word, and only `mlcu` can be without a word. -/
theorem decodeInvertsEncode : Obligations.DecodeInvertsEncode :=
  ⟨fun _ _ _ => decodeWith_of_encodeWith, fun _ => encode_of_wellFormed⟩

/-- Settles O3: every row is faithful to the words it covers. -/
theorem encodeInvertsDecode : Obligations.EncodeInvertsDecode := fun _ _ _ => encodeWith_of_decodeWith

/-- Settles O1: every two rows differ in a bit that both fix. -/
theorem opcodeRowsAreDisjoint : Obligations.OpcodeRowsAreDisjoint :=
  ⟨rfl, length_filter_covers_le_one codedRows_apart⟩

/-- Settles O4: each word of the table, decoded. -/
theorem workedEncodingsDecode : Obligations.WorkedEncodingsDecode := by
  refine ⟨?_, ?_, ?_, ?_, ?_, ?_, ?_, ?_, ?_, ?_, ?_, ?_, ?_, ?_, ?_, ?_, ?_, ?_, ?_, ?_, ?_, ?_, ?_⟩ <;> exact rfl

/-- Settles O5: each pattern is the word the encoder gives the form. -/
theorem loadStorePatternsDecode : Obligations.LoadStorePatternsDecode := by
  intro r x n e o g
  exact ⟨isWordOf_of_encMD r e rfl, isWordOf_of_encMD r e rfl, isWordOf_of_encMD r e rfl, isWordOf_of_encMD r e rfl,
    isWordOf_of_encMO r n o rfl, isWordOf_of_encMO r n o rfl, isWordOf_of_encMO r n o rfl, isWordOf_of_encMO r n o rfl,
    isWordOf_of_encMA r n rfl, isWordOf_of_encMA r n rfl, isWordOf_of_encMA r n rfl, isWordOf_of_encMA r n rfl,
    isWordOf_of_encMA r n rfl, isWordOf_of_encMA r n rfl, isWordOf_of_encMA r n rfl, isWordOf_of_encMA r n rfl,
    isWordOf_of_encMA r n rfl, isWordOf_of_encMA r n rfl, isWordOf_of_encMA r n rfl, isWordOf_of_encMA r n rfl,
    isWordOf_of_encMA r n rfl, isWordOf_of_encMA r n rfl, isWordOf_of_encMA r n rfl, isWordOf_of_encMA r n rfl,
    isWordOf_of_encMG n g rfl, isWordOf_of_encMG n g rfl, isWordOf_of_encMG n g rfl, isWordOf_of_encMG n g rfl,
    isWordOf_of_encMG n g rfl, isWordOf_of_encMG n g rfl, isWordOf_of_encMG n g rfl, isWordOf_of_encMG n g rfl⟩

/-- Settles O6: class by class, no row of the table has the bits that the class fixes. -/
theorem reservedClassesDecodeToNothing : Obligations.ReservedClassesDecodeToNothing := by
  rintro w low2 low4 top2 op sub b d mid (h | ⟨hlow, h⟩ | ⟨htop, hlow, h⟩ | ⟨htop, h⟩ | ⟨hlow, hop⟩ |
    ⟨hlow, h19, h8⟩ | ⟨hlow, h⟩ | ⟨hlow, h19, h8⟩ | ⟨hlow, h19, hop⟩ | ⟨hlow, hop, hd⟩)
  · exact reserved_low11 h
  · exact reserved_loadStoreMode hlow h
  · exact reserved_implied htop hlow h
  · exact reserved_branch htop h
  · exact reserved_arithmeticLogic hlow hop
  · exact reserved_constant10 (List.mem_cons.mpr (.inl hlow)) h19 h8
  · exact reserved_twoRegister hlow h
  · exact reserved_constant10 (List.mem_cons_of_mem _ (List.mem_singleton.mpr hlow)) h19 h8
  · exact reserved_constant8 hlow h19 hop
  · exact reserved_bitTest hlow hop hd

end Sys2Proof.Machine
end

section
/-! SUPPORT. What an instruction can do to the system state: which parts of it each instruction writes, who goes on to
the next address, and what every instruction leaves of the two memories. The laws of a step follow from it. -/

namespace Sys2Proof.Machine

/-! ## The system state and who writes it -/

/-- The parts of the state that only a few instructions write: all but the registers, SA, pc, data memory, and what the
core shows on `DBO` and on the bus. -/
@[simp] def Part.isSystem : Part → Bool
  | .reg _ | .pc | .sa | .dbo | .byte _ | .outputs => false
  | .cc | .ivtp | .csIs | .csIe | .csIr | .lc | .u0 | .ia | .ta | .ccs | .run | .imem | .dbi | .inputs => true

/-- What a write of a special register changes (R54); ID is read-only. -/
def sregParts : SReg → List Part
  | .cc => [.cc]
  | .cs => [.ivtp]
  | .lc => [.lc]
  | .u0 => [.u0]
  | .sa => [.sa]
  | .ia => [.ia]
  | .ta => [.ta]
  | .id => []

/-- The same by the number of the special register (R46). -/
def numberedParts (n : SRegNum) : List Part :=
  if n = 0 then [.cc] else if n = 1 then [.ivtp] else if n = 2 then [.lc] else if n = 4 then [.u0]
  else if n = 12 then [.sa] else if n = 13 then [.ia] else if n = 14 then [.ta] else []

theorem numberedParts_eq : ∀ n : SRegNum, numberedParts n = ((sregOf n).map sregParts).getD [] := by decide

theorem sregParts_of_sregOf {n : SRegNum} {r : SReg} (h : sregOf n = some r) : sregParts r = numberedParts n := by
  rw [numberedParts_eq, h]
  rfl

/-- The instructions with flags for a result: the additions, subtractions and comparisons, `andb` and `btts` (R38). -/
def WritesFlags (i : Instr) : Prop :=
  (∃ a b d, i = .addtReg a b d) ∨ (∃ c d, i = .addtImm c d) ∨ (∃ a b d, i = .addc a b d) ∨ (∃ a d, i = .adcf a d) ∨
  (∃ a b d, i = .subfReg a b d) ∨ (∃ c d, i = .subfImm c d) ∨ (∃ a b d, i = .subc a b d) ∨ (∃ a d, i = .sbcf a d) ∨
  (∃ a b, i = .compReg a b) ∨ (∃ c b, i = .compImm c b) ∨ (∃ a b, i = .cmpc a b) ∨ (∃ a, i = .cpcf a) ∨
  (∃ a b d, i = .andbReg a b d) ∨ (∃ c d, i = .andbImm c d) ∨ (∃ a b, i = .bttsReg a b) ∨ ∃ a b, i = .bttsImm a b

/-- `mtsr` into the special register of number `n`, in either form. -/
def MovesToSR (n : SRegNum) (i : Instr) : Prop := (∃ a, i = .mtsrReg a n) ∨ ∃ c, i = .mtsrImm c n

/-- The parts of the system state that an instruction writes when it completes, and pc where it does not go on to the
next address. -/
inductive Writes : Instr → List Part → Prop where
  | nothing (i : Instr) : Writes i []
  | flags {i : Instr} (h : WritesFlags i) : Writes i [.cc]
  | special {i : Instr} {n : SRegNum} (h : MovesToSR n i) : Writes i (numberedParts n)
  | jump {i : Instr} (h : SetsPc i ∨ i = .rspc) : Writes i [.pc]
  | loop (io : BitVec 10) : Writes (.brlc io) [.pc, .lc]
  | interruptReturn : Writes .rtir [.pc, .cc, .csIr]
  | enable {i : Instr} (h : i ∈ [.stie, .clie, .rsie]) : Writes i [.csIe]
  | saveEnable : Writes .scie [.csIs, .csIe]
  | stop : Writes .stop [.run]

/-- From `s` to `t` an instruction that writes `writes` completed: the rest of the system state is as it was, pc went on
unless it is written, and a data memory in canonical form stays in it. -/
structure Effect (writes : List Part) (s t : State) : Prop where
  kept : ∀ p : Part, p.isSystem = true → p ∉ writes → p.Same s t
  pc : .pc ∉ writes → t.pc = s.pc + 1#16
  wf : Memory.wf s.dmem = true → Memory.wf t.dmem = true

section
variable {s t : State} {l writes : List Part}

theorem Effect.of_kept (hkept : Kept s t l) (hl : ∀ p ∈ l, p.isSystem = true → p ∈ writes)
    (hpc : .pc ∉ writes → t.pc = s.pc + 1#16) (hwf : Memory.wf s.dmem = true → Memory.wf t.dmem = true) :
    Effect writes s t :=
  ⟨fun p hsys hp => hkept p fun hpl => hp (hl p hpl hsys), hpc, hwf⟩

end

/-! ## What the shared operations leave as it was -/

theorem setReg_kept (s : State) (r : RegNum) (v : Word) : Kept s (s.setReg r v) [.reg r] := setSel_kept s (.gpr r) v

theorem noteRead_kept (s : State) (sz : Size) (a : Word) : Kept s (s.noteRead sz a) [.outputs] := by
  intro p hp
  cases p <;> simp_all [Part.Same]

theorem writeSR_kept (s : State) (r : SReg) (v : Word) : Kept s (s.writeSR r v) (sregParts r) := by
  intro p hp
  cases r <;> cases p <;> simp_all [Part.Same, State.writeSR, sregParts, State.reg, State.readByte]

theorem setRun_kept (s : State) (r : RunState) : Kept s { s with run := r } [.run] := by
  intro p hp
  cases p <;> simp_all [Part.Same, State.reg, State.readByte]

/-! ## The effect of each shared operation

Each lemma takes the equation that an instruction of that shape satisfies when it completes. -/

section
variable {s t : State} {sz : Size} {eda newA : Word} {an : AddrNum} {rd rs : RegNum} {v : Word} {f : Flags}

theorem effect_of_finish (h : Host.Outcome.next (s.finish rd v) = (.next t : Result)) : Effect [] s t := by
  cases h
  exact .of_kept (finish_kept s rd v) (by simp) (fun _ => finish_pc ..) (by simp)

theorem effect_of_finishCC (h : Host.Outcome.next (s.finishCC rd v f) = (.next t : Result)) : Effect [.cc] s t := by
  cases h
  exact .of_kept (finishCC_kept s rd v f) (by simp) (fun _ => finishCC_pc ..) (by simp)

theorem effect_of_finishTest (h : Host.Outcome.next (s.finishTest f) = (.next t : Result)) : Effect [.cc] s t := by
  cases h
  exact .of_kept (finishTest_kept s f) (by simp) (fun _ => finishTest_pc ..) (by simp)

theorem effect_of_dbgOut (h : Host.Outcome.next (s.dbgOut v).advance = (.next t : Result)) : Effect [] s t := by
  cases h
  exact .of_kept (dbgOut_advance_kept s v) (by simp) (fun _ => advance_pc _) (by simp)

theorem effect_of_moveFromSR {n : SRegNum} (h : s.moveFromSR n rd = .next t) : Effect [] s t := by
  obtain ⟨r, -, e⟩ | ⟨-, e⟩ := moveFromSR_cases s n rd
  · exact effect_of_finish (e ▸ h)
  · cases e ▸ h

theorem effect_of_moveToSR {n : SRegNum} (h : s.moveToSR v n = .next t) : Effect (numberedParts n) s t := by
  obtain ⟨r, hr, e⟩ | ⟨-, e⟩ := moveToSR_cases s v n
  · cases e ▸ h
    rw [← sregParts_of_sregOf hr]
    refine .of_kept ((writeSR_kept s r v).trans (advance_kept _)) (fun p hp hsys => ?_) (by simp) (by simp)
    obtain hp | hp := List.mem_append.mp hp
    · exact hp
    · cases List.mem_singleton.mp hp
      cases hsys
  · cases e ▸ h

theorem effect_of_loadTo (h : s.loadTo Config.dmemRegions sz eda rd = .next t) : Effect [] s t := by
  rw [loadTo_default] at h
  cases h
  exact .of_kept (((noteRead_kept s sz eda).trans (setReg_kept _ _ _)).trans (advance_kept _)) (by simp)
    (by simp) (by simp)

theorem effect_of_loadUpdate (h : s.loadUpdate Config.dmemRegions sz eda an newA rd = .next t) : Effect [] s t := by
  obtain ⟨-, e⟩ | ⟨-, u, e, -, -, -, hpc, hmem, hkept⟩ := loadUpdate_cases s sz eda an newA rd
  · cases e ▸ h
  · cases e ▸ h
    exact .of_kept hkept (by simp) (fun _ => hpc) (by rw [hmem]; exact id)

theorem accessBytes_not_system : ∀ p ∈ accessBytes sz eda, p.isSystem = false := by
  cases sz <;> simp [accessBytes, shortBytes]

theorem effect_of_storeFrom (h : s.storeFrom Config.dmemRegions sz eda rs = .next t) : Effect [] s t := by
  rw [State.storeFrom, dataAccess_default] at h
  cases h
  refine .of_kept ((memWrite_kept s sz eda _).trans (advance_kept _)) ?_ (by simp) (memWrite_wf s sz eda _)
  simpa [or_imp, forall_and] using accessBytes_not_system

theorem effect_of_storeUpdate (h : s.storeUpdate Config.dmemRegions sz eda an newA rs = .next t) : Effect [] s t := by
  rw [State.storeUpdate, dataAccess_default] at h
  cases h
  refine .of_kept (((memWrite_kept s sz eda _).trans (setReg_kept _ _ _)).trans (advance_kept _)) ?_ (by simp)
    (memWrite_wf s sz eda _)
  simpa [or_imp, forall_and] using accessBytes_not_system

theorem effect_of_storePreDec (h : (if rs = addrReg an then .refused .addressRegisterOverlap
    else s.storeUpdate Config.dmemRegions sz eda an newA rs) = .next t) : Effect [] s t := by
  split at h
  · cases h
  · exact effect_of_storeUpdate h

end

/-! ## The effect of the selections -/

/-- What a sequence of accesses keeps, where it changes nothing of the system state and not pc. -/
structure AccessEffect (s u : State) : Prop where
  kept : ∃ l : List Part, Kept s u l ∧ .pc ∉ l ∧ ∀ p ∈ l, p.isSystem = false
  wf : Memory.wf s.dmem = true → Memory.wf u.dmem = true

section
variable {s t : State} {sz : Size} {an : AddrNum} {rgs : BitVec 10} {l : List SelReg} {edas : List Word}
  {access : State → State} {newA : Word}

theorem selPart_not_system (r : SelReg) : (selPart r).isSystem = false := by cases r <;> rfl

theorem selPart_ne_pc (r : SelReg) : selPart r ≠ .pc := by cases r <;> simp [selPart]

theorem pc_notMem_accessBytes (sz : Size) (a : Word) : .pc ∉ accessBytes sz a := by
  cases sz <;> simp [accessBytes, shortBytes]

theorem accessEffect_loadsAt (sz : Size) (l : List SelReg) (at_ : Nat → Word)
    (hmem : (loadsAt sz l at_ s).dmem = s.dmem) : AccessEffect s (loadsAt sz l at_ s) where
  kept := ⟨_, loadsAt_kept sz l at_ s, by simp [selPart_ne_pc],
    by simpa using fun r _ => selPart_not_system r⟩
  wf := by rw [hmem]; exact id

theorem accessEffect_storesAt (sz : Size) (l : List SelReg) (at_ : Nat → Word)
    (hwf : Memory.wf s.dmem = true → Memory.wf (storesAt sz l at_ s).dmem = true) :
    AccessEffect s (storesAt sz l at_ s) where
  kept := ⟨_, storesAt_kept sz l at_ s, by simp [pc_notMem_accessBytes],
    by simpa using fun p k _ hp => accessBytes_not_system p hp⟩
  wf := hwf

theorem effect_of_transfer (h : s.transfer Config.dmemRegions sz an l edas access newA = .next t)
    (ha : AccessEffect s (access s)) : Effect [] s t := by
  obtain ⟨-, e⟩ | ⟨-, -, e⟩ | ⟨-, -, e⟩ := transfer_cases s Config.dmemRegions sz an l edas access newA
  · cases e ▸ h
  · cases e ▸ h
  · rw [e, dataAccess_default] at h
    cases h
    obtain ⟨parts, hkept, hpc, hparts⟩ := ha.kept
    refine .of_kept ((hkept.trans (setReg_kept _ _ _)).trans (advance_kept _)) ?_ (fun _ => ?_) ha.wf
    · simpa [or_imp, forall_and] using hparts
    · exact congrArg (· + 1#16) (hkept .pc hpc)

theorem effect_of_loadSelUp (h : s.loadSelUp Config.dmemRegions sz an rgs = .next t) : Effect [] s t := by
  refine effect_of_transfer h ?_
  have hmem := (loadUp_memory sz (selUp sz rgs) (s.addr an) s).1
  rw [loadUp_eq] at hmem ⊢
  exact accessEffect_loadsAt sz _ _ hmem

theorem effect_of_loadSelDown (h : s.loadSelDown Config.dmemRegions sz an rgs = .next t) : Effect [] s t := by
  refine effect_of_transfer h ?_
  have hmem := (loadDown_memory sz (selDown sz rgs) (s.addr an) s).1
  rw [loadDown_eq] at hmem ⊢
  exact accessEffect_loadsAt sz _ _ hmem

theorem effect_of_storeSelUp (h : s.storeSelUp Config.dmemRegions sz an rgs = .next t) : Effect [] s t := by
  refine effect_of_transfer h ?_
  have hwf := fun hs => (storeUp_memory sz (selUp sz rgs) (s.addr an) s hs).1
  rw [storeUp_eq] at hwf ⊢
  exact accessEffect_storesAt sz _ _ hwf

theorem effect_of_storeSelDown (h : s.storeSelDown Config.dmemRegions sz an rgs = .next t) : Effect [] s t := by
  refine effect_of_transfer h ?_
  have hwf := fun hs => (storeDown_memory sz (selDown sz rgs) (s.addr an) s hs).1
  rw [storeDown_eq] at hwf ⊢
  exact accessEffect_storesAt sz _ _ hwf

end

/-! ## The effect of the flow instructions -/

section
variable {s t : State} {target : Word} {taken : Bool} {io : BitVec 10} {ie is : Bool}

theorem effect_of_setPc (h : Host.Outcome.next (s.setPc target) = (.next t : Result)) : Effect [.pc] s t := by
  cases h
  exact .of_kept (setPc_kept s target) (by simp) (by simp) (by simp)

theorem effect_of_call (h : Host.Outcome.next (s.call target) = (.next t : Result)) : Effect [.pc] s t := by
  cases h
  exact .of_kept (call_kept s target) (by simp) (by simp) id

theorem branch_dmem (s : State) (taken : Bool) (io : BitVec 10) : (s.branch taken io).dmem = s.dmem := by
  cases taken <;> rfl

theorem effect_of_branch (h : Host.Outcome.next (s.branch taken io) = (.next t : Result)) : Effect [.pc] s t := by
  cases h
  exact .of_kept (branch_kept s taken io) (by simp) (by simp) (by rw [branch_dmem]; exact id)

theorem effect_of_brlc (h : exec (.brlc io) s = .next t) : Effect [.pc, .lc] s t := by
  rw [exec_brlc] at h
  cases h
  exact .of_kept ((setLc_kept s _).trans (branch_kept _ _ io)) (by simp) (by simp) (by rw [branch_dmem]; exact id)

theorem exec_rtir_of_ir (h : s.csIr = true) : exec .rtir s = .next s.returnFromInterrupt := if_pos h

theorem exec_rtir_of_no_ir (h : s.csIr = false) : exec .rtir s = .refused .returnOutsideInterrupt :=
  if_neg (by simp [h])

theorem rtir_next (h : exec .rtir s = .next t) : t = s.returnFromInterrupt := by
  cases hir : s.csIr with
  | false => cases (exec_rtir_of_no_ir hir).symm.trans h
  | true => cases (exec_rtir_of_ir hir).symm.trans h; rfl

theorem effect_of_rtir (h : exec .rtir s = .next t) : Effect [.pc, .cc, .csIr] s t := by
  obtain ⟨-, -, -, hkept⟩ := returnFromInterrupt_spec s
  rw [rtir_next h]
  exact .of_kept hkept (by simp) (by simp) id

theorem effect_of_setIe (h : Host.Outcome.next ({ s with csIe := ie } : State).advance = (.next t : Result)) :
    Effect [.csIe] s t := by
  cases h
  exact .of_kept ((setIe_kept s ie).trans (advance_kept _)) (by simp) (fun _ => rfl) id

theorem effect_of_scie (h : exec .scie s = .next t) : Effect [.csIs, .csIe] s t := by
  cases h
  exact .of_kept ((setIsIe_kept s s.csIe false).trans (advance_kept _)) (by simp) (fun _ => rfl) id

theorem effect_of_stop (h : exec .stop s = .next t) : Effect [.run] s t := by
  cases h
  exact .of_kept ((setRun_kept s .stopped).trans (advance_kept _)) (by simp) (fun _ => rfl) id

theorem effect_of_mfdp {rd : RegNum} (h : exec (.mfdp rd) s = .next t) : Effect [] s t := by
  obtain ⟨v, -, rfl⟩ := dbgIn_eq_next s t _ h
  exact effect_of_finish rfl

theorem effect_of_rspc (h : exec .rspc s = .next t) : Effect [.pc] s t := by
  obtain ⟨v, -, rfl⟩ := dbgIn_eq_next s t _ h
  exact effect_of_setPc rfl

end

/-! ## The effect of every instruction -/

/-- What a completed instruction did: one case per shared operation that the instructions are made of. -/
theorem exec_effect {i : Instr} {s t : State} (h : exec i s = .next t) : ∃ l, Writes i l ∧ Effect l s t := by
  cases i with
  | addh | negt | absl | clzr | sxbt | sxsh | iorbReg | iorbImm | xorbReg | xorbImm | invt | shlzReg | shlzImm
  | shruReg | shruImm | shlfReg | shlfImm | shrsReg | shrsImm | btclReg | btclImm | btstReg | btstImm | bttgReg
  | bttgImm | mult | mlhu | mlhs | mlcu | moveReg | moveImm | mvsr => exact ⟨_, .nothing _, effect_of_finish h⟩
  | addtReg | addtImm | addc | adcf | subfReg | subfImm | subc | sbcf | andbReg | andbImm =>
    exact ⟨_, .flags (by simp [WritesFlags]), effect_of_finishCC h⟩
  | compReg | compImm | cmpc | cpcf | bttsReg | bttsImm =>
    exact ⟨_, .flags (by simp [WritesFlags]), effect_of_finishTest h⟩
  | mfsr => exact ⟨_, .nothing _, effect_of_moveFromSR h⟩
  | mtsrReg a => exact ⟨_, .special (.inl ⟨a, rfl⟩), effect_of_moveToSR h⟩
  | mtsrImm c => exact ⟨_, .special (.inr ⟨c, rfl⟩), effect_of_moveToSR h⟩
  | mfdp => exact ⟨_, .nothing _, effect_of_mfdp h⟩
  | mtdp | svpc => exact ⟨_, .nothing _, effect_of_dbgOut h⟩
  | ldbtDirect | ldbtOffset | ldbtIndex | ldshDirect | ldshOffset | ldshIndex =>
    exact ⟨_, .nothing _, effect_of_loadTo h⟩
  | ldbtPostInc | ldbtPreDec | ldbtPostUpd | ldshPostInc | ldshPreDec | ldshPostUpd =>
    exact ⟨_, .nothing _, effect_of_loadUpdate h⟩
  | ldbtPostIncSel | ldshPostIncSel => exact ⟨_, .nothing _, effect_of_loadSelUp h⟩
  | ldbtPreDecSel | ldshPreDecSel => exact ⟨_, .nothing _, effect_of_loadSelDown h⟩
  | stbtDirect | stbtOffset | stbtIndex | stshDirect | stshOffset | stshIndex =>
    exact ⟨_, .nothing _, effect_of_storeFrom h⟩
  | stbtPostInc | stbtPostUpd | stshPostInc | stshPostUpd => exact ⟨_, .nothing _, effect_of_storeUpdate h⟩
  | stbtPreDec | stshPreDec => exact ⟨_, .nothing _, effect_of_storePreDec h⟩
  | stbtPostIncSel | stshPostIncSel => exact ⟨_, .nothing _, effect_of_storeSelUp h⟩
  | stbtPreDecSel | stshPreDecSel => exact ⟨_, .nothing _, effect_of_storeSelDown h⟩
  | jump | rtsr | bral => exact ⟨_, .jump (by simp [SetsPc]), effect_of_setPc h⟩
  | jpsrAbs | jpsr => exact ⟨_, .jump (by simp [SetsPc]), effect_of_call h⟩
  | brnc | brcr | brno | brof | brnz | brzr | brps | brng | brls | brhi | brlo | brge | brle | brgt =>
    exact ⟨_, .jump (by simp [SetsPc]), effect_of_branch h⟩
  | rtir => exact ⟨_, .interruptReturn, effect_of_rtir h⟩
  | brlc io => exact ⟨_, .loop io, effect_of_brlc h⟩
  | stie | clie | rsie => exact ⟨_, .enable (by simp), effect_of_setIe h⟩
  | scie => exact ⟨_, .saveEnable, effect_of_scie h⟩
  | rspc => exact ⟨_, .jump (.inr rfl), effect_of_rspc h⟩
  | stop => exact ⟨_, .stop, effect_of_stop h⟩

/-! ## Who writes which part (R35 to R55) -/

/-- The part that each number of a special register stands for; no number stands for IS, IE, IR, CCS or the run state. -/
theorem mem_numberedParts {n : SRegNum} {p : Part} (hp : p ∈ numberedParts n) :
    (p, n) ∈ [(.cc, 0), (.ivtp, 1), (.lc, 2), (.u0, 4), (.sa, 12), (.ia, 13), (.ta, 14)] := by
  have hall : ∀ n : SRegNum, ∀ p ∈ numberedParts n,
    (p, n) ∈ [(.cc, 0), (.ivtp, 1), (.lc, 2), (.u0, 4), (.sa, 12), (.ia, 13), (.ta, 14)] := by decide
  exact hall n p hp

/-- The writers of a part, read off the cases of `Writes`. -/
theorem Writes.of_mem {i : Instr} {l : List Part} {p : Part} (hw : Writes i l) (hp : p ∈ l) :
    (p = .cc ∧ WritesFlags i) ∨
    (∃ n, MovesToSR n i ∧ (p, n) ∈ [(.cc, 0), (.ivtp, 1), (.lc, 2), (.u0, 4), (.sa, 12), (.ia, 13), (.ta, 14)]) ∨
    (p = .pc ∧ (SetsPc i ∨ i = .rspc)) ∨ (p = .lc ∧ ∃ io, i = .brlc io) ∨ (p ∈ [.cc, .csIr] ∧ i = .rtir) ∨
    (p = .csIe ∧ i ∈ [.stie, .clie, .scie, .rsie]) ∨ (p = .csIs ∧ i = .scie) ∨ (p = .run ∧ i = .stop) := by
  cases hw with
  | nothing => cases hp
  | flags h => exact .inl ⟨List.mem_singleton.mp hp, h⟩
  | special h => exact .inr (.inl ⟨_, h, mem_numberedParts hp⟩)
  | jump h => exact .inr (.inr (.inl ⟨List.mem_singleton.mp hp, h⟩))
  | enable h =>
    obtain rfl := List.mem_singleton.mp hp
    have hi : i ∈ [.stie, .clie, .scie, .rsie] := by
      simp only [List.mem_cons] at h ⊢
      tauto
    exact .inr (.inr (.inr (.inr (.inr (.inl ⟨rfl, hi⟩)))))
  | loop =>
    obtain rfl | rfl : p = .pc ∨ p = .lc := by simpa using hp
    · simp [SetsPc]
    · simp
  | interruptReturn =>
    obtain rfl | rfl | rfl : p = .pc ∨ p = .cc ∨ p = .csIr := by simpa using hp
    · simp [SetsPc]
    · simp
    · simp
  | saveEnable =>
    obtain rfl | rfl : p = .csIs ∨ p = .csIe := by simpa using hp
    · simp
    · simp
  | stop =>
    obtain rfl := List.mem_singleton.mp hp
    simp

theorem Effect.mem_of_changed {l : List Part} {s t : State} {p : Part} (h : Effect l s t) (hsys : p.isSystem = true)
    (hchanged : ¬ p.Same s t) : p ∈ l :=
  by_contra fun hp => hchanged (h.kept p hsys hp)

/-- No instruction writes CCS, the instruction memory, or what the host offers (R55, R80, R430). -/
theorem exec_same_of_unwritten {i : Instr} {s t : State} {p : Part} (h : exec i s = .next t)
    (hp : p ∈ [.ccs, .imem, .dbi, .inputs]) : p.Same s t := by
  obtain ⟨l, hw, he⟩ := exec_effect h
  simp only [List.mem_cons, List.not_mem_nil, or_false] at hp
  obtain rfl | rfl | rfl | rfl := hp <;> exact he.kept _ rfl fun hpl => by simpa using hw.of_mem hpl

end Sys2Proof.Machine
end

section
/-! SUPPORT. The laws of every instruction that follow from its effect: who sets pc, who writes which part of the system
state, what a critical section keeps, and that every well-formed instruction completes. -/

namespace Sys2Proof.Machine

/-! ## Requests that are not acknowledged (R403, R430) -/

theorem handle_interrupt_of_not_acknowledged {s : State} (k : BitVec 4) (h : s.acknowledges = false) :
    s.handle (.interrupt k) = .next s := by
  simp [State.handle, h]

theorem not_acknowledges {s : State} (h : s.csIe = false ∨ s.csIr = true ∨ s.run = .stopped) :
    s.acknowledges = false := by
  obtain h | h | h := h <;> simp [State.acknowledges, h]

/-! ## The critical section (R45, R368) -/

/-- IE and IS stay in a critical section: only `clie` writes one of them there, and it leaves IE clear. -/
theorem exec_keeps_section {i : Instr} {u v : State} (h : exec i u = .next v) (hi : i ∉ [.stie, .rsie, .scie])
    (hie : u.csIe = false) : v.csIe = false ∧ v.csIs = u.csIs := by
  obtain ⟨l, hw, he⟩ := exec_effect h
  have his : .csIs ∉ l := fun hl => by
    have : i = .scie := by simpa using hw.of_mem hl
    simp [this] at hi
  refine ⟨?_, he.kept .csIs rfl his⟩
  by_cases hl : .csIe ∈ l
  · have hclie : i = .clie := by
      have : i = .stie ∨ i = .clie ∨ i = .scie ∨ i = .rsie := by simpa using hw.of_mem hl
      simp only [List.mem_cons] at hi
      tauto
    subst hclie
    cases h
    rfl
  · exact Eq.trans (he.kept .csIe rfl hl) hie

/-! ## Completion (R400) -/

section
variable {s : State} {sz : Size} {an : AddrNum} {eda newA : Word} {rd rs : RegNum}

theorem loadUpdate_completes (h : (rd != addrReg an) = true) :
    ∃ t, s.loadUpdate Config.dmemRegions sz eda an newA rd = .next t := by
  obtain ⟨e, -⟩ | ⟨-, t, ht, -⟩ := loadUpdate_cases s sz eda an newA rd
  · simp [addrReg_eq, e] at h
  · exact ⟨t, ht⟩

theorem storeUpdate_completes : ∃ t, s.storeUpdate Config.dmemRegions sz eda an newA rs = .next t :=
  ⟨_, dataAccess_default ..⟩

theorem storePreDec_completes (h : (rs != addrReg an) = true) :
    ∃ t, (if rs = addrReg an then .refused .addressRegisterOverlap
      else s.storeUpdate Config.dmemRegions sz eda an newA rs) = .next t := by
  rw [if_neg (by simpa using h)]
  exact storeUpdate_completes

theorem transfer_completes {l : List SelReg} {edas : List Word} {access : State → State} (h : selOk an l = true) :
    ∃ t, s.transfer Config.dmemRegions sz an l edas access newA = .next t := by
  obtain ⟨hempty, hhits⟩ : l.isEmpty = false ∧ selHits an l = false := by simpa [selOk] using h
  exact ⟨_, by rw [State.transfer, hempty, hhits, dataAccess_default]; rfl⟩

theorem moveFromSR_completes {n : SRegNum} (h : (sregOf n).isSome = true) : ∃ t, s.moveFromSR n rd = .next t := by
  obtain ⟨r, -, e⟩ | ⟨hn, -⟩ := moveFromSR_cases s n rd
  · exact ⟨_, e⟩
  · simp [hn] at h

theorem moveToSR_completes {n : SRegNum} {v : Word} (h : (sregOf n).isSome = true) :
    ∃ t, s.moveToSR v n = .next t := by
  obtain ⟨r, -, e⟩ | ⟨hn, -⟩ := moveToSR_cases s v n
  · exact ⟨_, e⟩
  · simp [hn] at h

theorem dbgIn_completes {next : Word → State} (h : ∃ v : BitVec 20, s.dbi = some v) : ∃ t, s.dbgIn next = .next t := by
  obtain ⟨v, hv⟩ := h
  obtain ⟨w, -, e⟩ | ⟨hn, -⟩ := dbgIn_cases s next
  · exact ⟨_, e⟩
  · simp [hn] at hv

end

/-- The checks of `wellFormed` are those that the shared operations ask for; every other instruction has one outcome. -/
theorem exec_completes {i : Instr} {s : State} (hwf : i.wellFormed = true) (hir : i = .rtir → s.csIr = true)
    (hdbi : i = .rspc ∨ (∃ rd : RegNum, i = .mfdp rd) → ∃ v : BitVec 20, s.dbi = some v) :
    ∃ t, exec i s = .next t := by
  cases i with
  | mfsr => exact moveFromSR_completes hwf
  | mtsrReg | mtsrImm => exact moveToSR_completes hwf
  | mfdp rd => exact dbgIn_completes (hdbi (.inr ⟨rd, rfl⟩))
  | rspc => exact dbgIn_completes (hdbi (.inl rfl))
  | rtir => exact ⟨_, exec_rtir_of_ir (hir rfl)⟩
  | ldbtDirect | ldbtOffset | ldbtIndex | ldshDirect | ldshOffset | ldshIndex => exact ⟨_, loadTo_default ..⟩
  | ldbtPostInc | ldbtPreDec | ldbtPostUpd | ldshPostInc | ldshPreDec | ldshPostUpd => exact loadUpdate_completes hwf
  | stbtDirect | stbtOffset | stbtIndex | stshDirect | stshOffset | stshIndex => exact ⟨_, dataAccess_default ..⟩
  | stbtPostInc | stbtPostUpd | stshPostInc | stshPostUpd => exact storeUpdate_completes
  | stbtPreDec | stshPreDec => exact storePreDec_completes hwf
  | ldbtPostIncSel | ldbtPreDecSel | ldshPostIncSel | ldshPreDecSel | stbtPostIncSel | stbtPreDecSel
  | stshPostIncSel | stshPreDecSel => exact transfer_completes hwf
  | _ => exact ⟨_, rfl⟩

/-! ## The obligations -/

/-- Settles O47: `scie` clears IE, which stops every request, and saves it; the section keeps both until `rsie` writes
the saved IE back. -/
theorem criticalSectionExcludesInterrupts : Obligations.CriticalSectionExcludesInterrupts := by
  intro s
  obtain ⟨t, hscie, hsaved, hclear, -⟩ := scie_completes s
  refine ⟨t, hscie, fun k => handle_interrupt_of_not_acknowledged k (not_acknowledges (.inl hclear)), ?_⟩
  intro u hie his
  refine ⟨fun k => handle_interrupt_of_not_acknowledged k (not_acknowledges (.inl hie)), fun i v hi h => ?_, ?_⟩
  · obtain ⟨hie', his'⟩ := exec_keeps_section h hi hie
    exact ⟨hie', his'.trans his⟩
  · exact ⟨_, rfl, his.trans hsaved⟩

/-- Settles O9: `mlcu` completes like the others, though it has no code while the parameter is unset. -/
theorem wellFormedInstructionsComplete : Obligations.WellFormedInstructionsComplete := by
  rintro i s (hwf | ⟨c8, rb, rfl⟩) hir hdbi
  · exact exec_completes hwf hir hdbi
  · exact ⟨_, rfl⟩

/-- Settles O10: an instruction with another pc after it is one of those that write pc. -/
theorem otherInstructionsAdvancePc : Obligations.OtherInstructionsAdvancePc := by
  intro i s t h hset hrspc
  obtain ⟨l, hw, he⟩ := exec_effect h
  refine he.pc fun hpc => ?_
  have : SetsPc i ∨ i = .rspc := by simpa using hw.of_mem hpc
  exact this.elim hset hrspc

/-- Settles O54: a part with another value after an instruction is one it writes, and `Writes` names its writers. -/
theorem systemStateHasFewWriters : Obligations.SystemStateHasFewWriters := by
  intro i s t h
  obtain ⟨l, hw, he⟩ := exec_effect h
  refine ⟨fun hne => ?cc, fun hne => ?csIr, fun hne => ?csIe, fun hne => ?csIs, fun hne => ?ivtp, fun hne => ?u0,
    fun hne => ?ia, fun hne => ?ta, fun hne => ?lc, exec_same_of_unwritten (p := .ccs) h (by simp),
    exec_same_of_unwritten (p := .imem) h (by simp), fun hne => ?run, exec_same_of_unwritten (p := .dbi) h (by simp),
    exec_same_of_unwritten (p := .inputs) h (by simp)⟩
  case cc =>
    have hwriter : WritesFlags i ∨ MovesToSR 0 i ∨ i = .rtir := by
      simpa using hw.of_mem (he.mem_of_changed (p := .cc) rfl hne)
    simpa only [WritesFlags, MovesToSR, or_assoc] using hwriter
  case csIr =>
    obtain rfl : i = .rtir := by simpa using hw.of_mem (he.mem_of_changed (p := .csIr) rfl hne)
    exact ⟨rfl, by rw [rtir_next h]; rfl⟩
  case csIe => simpa using hw.of_mem (he.mem_of_changed (p := .csIe) rfl hne)
  case csIs => simpa using hw.of_mem (he.mem_of_changed (p := .csIs) rfl hne)
  case ivtp => simpa [MovesToSR] using hw.of_mem (he.mem_of_changed (p := .ivtp) rfl hne)
  case u0 => simpa [MovesToSR] using hw.of_mem (he.mem_of_changed (p := .u0) rfl hne)
  case ia => simpa [MovesToSR] using hw.of_mem (he.mem_of_changed (p := .ia) rfl hne)
  case ta => simpa [MovesToSR] using hw.of_mem (he.mem_of_changed (p := .ta) rfl hne)
  case lc => simpa [MovesToSR, or_assoc] using hw.of_mem (he.mem_of_changed (p := .lc) rfl hne)
  case run => simpa using hw.of_mem (he.mem_of_changed (p := .run) rfl hne)

end Sys2Proof.Machine
end

section
/-! SUPPORT. The laws of a step (60_exceptions.md R430): fetching and executing, injection, the debug module's and the
host's events, interrupts and reset, and what every step leaves of the two memories. -/

namespace Sys2Proof.Machine

/-! ## The core's own step (R82, R143, R420) -/

section
variable {s : State} {w : Opcode}

theorem stepCore_of_running (h : s.run = .running) : s.stepCore = s.stepInstr := by
  simp only [State.stepCore, h]

theorem stepCore_of_stopped (h : s.run = .stopped) : s.stepCore = .next s := by
  simp only [State.stepCore, h]

theorem stepInstr_of_decode {i : Instr} (hw : Memory.find s.pc.toNat s.imem = some w) (hi : decode w = .ok i) :
    s.stepInstr = exec i s := by
  simp only [State.stepInstr, instrAccess_default, State.fetch, hw, hi]

theorem stepInstr_of_reserved {c : ReservedClass} (hw : Memory.find s.pc.toNat s.imem = some w)
    (hc : decode w = .error c) : s.stepInstr = .refused (.reservedEncoding c) := by
  simp only [State.stepInstr, instrAccess_default, State.fetch, hw, hc]

theorem stepInstr_of_no_word (h : Memory.find s.pc.toNat s.imem = none) :
    s.stepInstr = .fault (.noInstruction s.pc) := by
  simp only [State.stepInstr, instrAccess_default, State.fetch, h]

end

/-! ## Taking an event off the list changes nothing else -/

theorem setInputs_kept (s : State) (es : List HostEvent) : Kept s { s with inputs := es } [.inputs] := by
  intro p hp
  cases p <;> simp_all [Part.Same, State.reg, State.readByte]

theorem setDbi_kept (s : State) (v : Option (BitVec 20)) : Kept s { s with dbi := v } [.dbi] := by
  intro p hp
  cases p <;> simp_all [Part.Same, State.reg, State.readByte]

theorem putByte_kept (s : State) (a : Word) (b : Byte) : Kept s (s.putByte a b) [.byte a] := by
  intro p hp
  cases p <;> simp_all [Part.Same, putByte_readByte]

theorem putInstr_kept (s : State) (a : Word) (w : Opcode) : Kept s (s.putInstr a w) [.imem] := by
  intro p hp
  cases p <;> simp_all [Part.Same]

/-! ## Events that the run state does not enable (R430) -/

section
variable {s : State}

theorem handle_inject_of_running (w : Opcode) (data : Option (BitVec 20)) (h : s.run = .running) :
    s.handle (.inject w data) = .refused .eventNotEnabled := by simp [State.handle, h]

theorem handle_inject_of_stopped (w : Opcode) (data : Option (BitVec 20)) (h : s.run = .stopped) :
    s.handle (.inject w data) = s.inject w data := by simp [State.handle, h]

theorem handle_resume_of_running (h : s.run = .running) : s.handle .resume = .refused .eventNotEnabled := by
  simp [State.handle, h]

theorem handle_resume_of_stopped (h : s.run = .stopped) : s.handle .resume = .next { s with run := .running } := by
  simp [State.handle, h]

theorem handle_loadData_of_running (a : Word) (b : Byte) (h : s.run = .running) :
    s.handle (.loadData a b) = .refused .eventNotEnabled := by simp [State.handle, h]

theorem handle_loadData_of_stopped (a : Word) (b : Byte) (h : s.run = .stopped) :
    s.handle (.loadData a b) = .next (s.putByte a b) := by simp [State.handle, h]

theorem handle_loadInstr_of_running (a : Word) (w : Opcode) (h : s.run = .running) :
    s.handle (.loadInstr a w) = .refused .eventNotEnabled := by simp [State.handle, h]

theorem handle_loadInstr_of_stopped (a : Word) (w : Opcode) (h : s.run = .stopped) :
    s.handle (.loadInstr a w) = .next (s.putInstr a w) := by simp [State.handle, h]

theorem handle_interrupt_of_acknowledged (k : BitVec 4) (h : s.acknowledges = true) :
    s.handle (.interrupt k) = .next (s.takeInterrupt k) := by simp [State.handle, h]

end

/-! ## Injection (R422 to R424, R429) -/

section
variable {s : State} {w : Opcode} {data : Option (BitVec 20)} {i : Instr}

theorem inject_of_reserved {c : ReservedClass} (h : decode w = .error c) :
    s.inject w data = .refused (.reservedEncoding c) := by
  simp only [State.inject, h]

theorem inject_of_flow (h : decode w = .ok i) (hi : SetsPc i ∨ i = .stop) :
    s.inject w data = .refused .injectedFlow := by
  have hnot : injectable i = false := by
    rw [← Bool.not_eq_true, injectable_iff]
    tauto
  simp [State.inject, h, hnot]

theorem inject_of_rspc (h : decode w = .ok .rspc) : s.inject w data = exec .rspc { s with dbi := data } := by
  simp only [State.inject, h]
  rfl

theorem inject_of_other (h : decode w = .ok i) (hset : ¬ SetsPc i) (hstop : i ≠ .stop) (hrspc : i ≠ .rspc) :
    s.inject w data = Result.holdPc s.pc (exec i { s with dbi := data }) := by
  have hinjectable : injectable i = true := (injectable_iff i).mpr ⟨hset, hstop⟩
  have hheld : setsHeldPc i = false := beq_false_of_ne hrspc
  simp [State.inject, h, hinjectable, hheld]

end

/-! ## The memories after a step -/

/-- Data memory stays in canonical form and instruction memory stays as it is. -/
structure KeepsMemories (s t : State) : Prop where
  wf : Memory.wf s.dmem = true → Memory.wf t.dmem = true
  imem : t.imem = s.imem

theorem exec_keepsMemories {i : Instr} {s t : State} (h : exec i s = .next t) : KeepsMemories s t := by
  obtain ⟨l, -, he⟩ := exec_effect h
  exact ⟨he.wf, exec_same_of_unwritten (p := .imem) h (by simp)⟩

theorem stepCore_keepsMemories {s t : State} (h : s.stepCore = .next t) : KeepsMemories s t := by
  obtain ⟨-, rfl⟩ | ⟨-, w, i, -, -, hexec⟩ := stepCore_next h
  · exact ⟨id, rfl⟩
  · exact exec_keepsMemories hexec

theorem inject_keepsMemories {s t : State} {w : Opcode} {data : Option (BitVec 20)} (h : s.inject w data = .next t) :
    KeepsMemories s t := by
  obtain ⟨i, u, -, -, hexec, rfl⟩ := inject_next h
  obtain ⟨hwf, himem⟩ := exec_keepsMemories hexec
  split
  · exact ⟨hwf, himem⟩
  · exact ⟨hwf, himem⟩

/-- Every event but the host's load of an instruction word keeps instruction memory. -/
theorem handle_keepsMemories {s t : State} {e : HostEvent} (h : s.handle e = .next t)
    (he : ∀ (a : Word) (w : Opcode), e ≠ .loadInstr a w) : KeepsMemories s t := by
  cases e with
  | reset irn strq =>
    have ht : t = s.applyReset irn strq := handle_next h
    subst ht
    exact ⟨id, rfl⟩
  | step => exact stepCore_keepsMemories h
  | interrupt k =>
    have ht : (s.acknowledges = true ∧ t = s.takeInterrupt k) ∨ (s.acknowledges = false ∧ t = s) := handle_next h
    obtain ⟨-, rfl⟩ | ⟨-, rfl⟩ := ht
    · exact ⟨id, rfl⟩
    · exact ⟨id, rfl⟩
  | stopRequest =>
    have ht : t = { s with run := .stopped } := handle_next h
    subst ht
    exact ⟨id, rfl⟩
  | inject w data =>
    have ht : s.run = .stopped ∧ s.inject w data = .next t := handle_next h
    exact inject_keepsMemories ht.2
  | resume =>
    have ht : s.run = .stopped ∧ t = { s with run := .running } := handle_next h
    obtain ⟨-, rfl⟩ := ht
    exact ⟨id, rfl⟩
  | loadInstr a w => exact absurd rfl (he a w)
  | loadData a b =>
    have ht : s.run = .stopped ∧ t = s.putByte a b := handle_next h
    obtain ⟨-, rfl⟩ := ht
    exact ⟨putByte_wf s a b, rfl⟩
  | driveDbi v =>
    have ht : t = { s with dbi := v } := handle_next h
    subst ht
    exact ⟨id, rfl⟩

/-- A step with no load of an instruction word next, from any state. -/
theorem step_keepsMemories {s t : State} (h : step s = .next t)
    (hnext : ∀ (a : Word) (w : Opcode) (es : List HostEvent), s.inputs ≠ .loadInstr a w :: es) : KeepsMemories s t := by
  cases hin : s.inputs with
  | nil => exact stepCore_keepsMemories (step_of_nil hin ▸ h)
  | cons e es =>
    have hhandle : ({ s with inputs := es } : State).handle e = .next t := step_of_cons hin ▸ h
    obtain ⟨hwf, himem⟩ := handle_keepsMemories hhandle fun a w he => hnext a w es (he ▸ hin)
    exact ⟨hwf, himem⟩

/-- A step with a load of an instruction word next: a stopped core takes it. -/
theorem step_of_loadInstr {s t : State} {a : Word} {w : Opcode} {es : List HostEvent} (h : step s = .next t)
    (hin : s.inputs = .loadInstr a w :: es) :
    s.run = .stopped ∧ t = ({ s with inputs := es } : State).putInstr a w :=
  handle_next (e := .loadInstr a w) (step_of_cons hin ▸ h)

/-! ## Interrupt entry and return (R403 to R411) -/

/-- Returning completes where IR is set, and restores pc and CC from the registers that hold them. -/
theorem rtir_completes {s : State} (h : s.csIr = true) :
    Completes .rtir s fun t => t.pc = s.ia ∧ t.cc = s.ccs ∧ t.csIr = false ∧ Kept s t [.pc, .cc, .csIr] :=
  ⟨_, exec_rtir_of_ir h, returnFromInterrupt_spec s⟩

/-- A request that is acknowledged is taken in the state whose list of events has lost it. -/
theorem step_of_interrupt {s : State} {es : List HostEvent} {k : BitVec 4} (hin : s.inputs = .interrupt k :: es)
    (hie : s.csIe = true) (hir : s.csIr = false) (hrun : s.run = .running) :
    step s = .next (({ s with inputs := es } : State).takeInterrupt k) := by
  rw [step_of_cons hin]
  exact handle_interrupt_of_acknowledged k (by simp [State.acknowledges, hie, hir, hrun])

/-! ## The obligations: instructions -/

/-- Settles O7: without an event, or with `Step`, the step is the core's own, which fetches and executes. -/
theorem stepRunsDecodedInstruction : Obligations.StepRunsDecodedInstruction := by
  intro s w i hrun hw hi
  refine ⟨fun hin => ?_, fun es hin => ?_⟩
  · rw [step_of_nil hin, stepCore_of_running hrun, stepInstr_of_decode hw hi]
  · have hown : step s = ({ s with inputs := es } : State).stepCore := step_of_cons hin
    exact (hown.trans (stepCore_of_running hrun)).trans (stepInstr_of_decode hw hi)

/-- Settles O8: the other outcomes of the core's own step, by the word at pc and the run state. -/
theorem stepWithoutInstruction : Obligations.StepWithoutInstruction := by
  intro s
  refine ⟨fun hin hrun hnone => ?_, fun hin hrun w c hw hc => ?_, fun hin hstop => ?_, fun es hin hstop => ?_⟩
  · rw [step_of_nil hin, stepCore_of_running hrun, stepInstr_of_no_word hnone]
  · rw [step_of_nil hin, stepCore_of_running hrun, stepInstr_of_reserved hw hc]
  · rw [step_of_nil hin, stepCore_of_stopped hstop]
  · have hown : step s = ({ s with inputs := es } : State).stepCore := step_of_cons hin
    exact hown.trans (stepCore_of_stopped hstop)

/-! ## The obligations: the debug module and the host -/

/-- Settles O49: an injection is the execution of its word with pc held, but for `rspc`, and what may not be injected is
refused. -/
theorem injectionHoldsPc : Obligations.InjectionHoldsPc := by
  intro s es w data hin
  have hstep : step s = ({ s with inputs := es } : State).handle (.inject w data) := step_of_cons hin
  refine ⟨fun hrun => ?running, fun hstop c hc => ?reserved, fun hstop i hi => ?_⟩
  case running => exact hstep.trans (handle_inject_of_running w data hrun)
  case reserved => exact (hstep.trans (handle_inject_of_stopped w data hstop)).trans (inject_of_reserved hc)
  have hinject := hstep.trans (handle_inject_of_stopped w data hstop)
  refine ⟨fun hset hne hrspc => ⟨fun t ht => ?completes, fun q hq => ?refused⟩, ?rspc, fun hflow => ?flow⟩
  case completes =>
    rw [inject_of_other hi hset hne hrspc, ht] at hinject
    exact ⟨t.setPc s.pc, hinject, rfl, setPc_kept t s.pc⟩
  case refused =>
    rw [inject_of_other hi hset hne hrspc, hq] at hinject
    exact hinject
  case rspc =>
    rintro rfl
    rw [inject_of_rspc hi] at hinject
    refine ⟨fun v hv => ?_, fun hnone => ?_⟩
    · subst hv
      exact ⟨_, hinject, rfl, ((setInputs_kept s es).trans (setDbi_kept _ _)).trans (setPc_kept _ _) |>.mono (by simp)⟩
    · subst hnone
      exact hinject
  case flow => exact hinject.trans (inject_of_flow hi hflow)

/-- Settles O50: both events write the run state and nothing else. -/
theorem stopAndResume : Obligations.StopAndResume := by
  intro s es
  refine ⟨fun hin => ?stop, fun hin hstop => ?resume, fun hin hrun => ?refused⟩
  case stop =>
    exact ⟨_, step_of_cons hin, rfl, rfl, ((setInputs_kept s es).trans (setRun_kept _ .stopped)).mono (by simp)⟩
  case resume =>
    have hstep := (step_of_cons hin).trans (handle_resume_of_stopped (s := { s with inputs := es }) hstop)
    exact ⟨_, hstep, rfl, rfl, ((setInputs_kept s es).trans (setRun_kept _ .running)).mono (by simp)⟩
  case refused => exact (step_of_cons hin).trans (handle_resume_of_running hrun)

/-- Settles O51: a stopped core takes the byte or the word, which changes that cell and nothing else. -/
theorem hostMemoryLoads : Obligations.HostMemoryLoads := by
  intro s es a
  refine ⟨fun b hin => ⟨fun hstop => ?_, fun hrun => ?_⟩, fun w hin => ⟨fun hstop => ?_, fun hrun => ?_⟩⟩
  · refine ⟨_, (step_of_cons hin).trans (handle_loadData_of_stopped a b hstop), ?_, rfl, ?_⟩
    · simp [putByte_readByte]
    · exact ((setInputs_kept s es).trans (putByte_kept _ a b)).mono (by simp)
  · exact (step_of_cons hin).trans (handle_loadData_of_running a b hrun)
  · refine ⟨_, (step_of_cons hin).trans (handle_loadInstr_of_stopped a w hstop), ?_, fun c hc => ?_, rfl, ?_⟩
    · simp [putInstr_find]
    · simp [putInstr_find, hc]
    · exact ((setInputs_kept s es).trans (putInstr_kept _ a w)).mono (by simp)
  · exact (step_of_cons hin).trans (handle_loadInstr_of_running a w hrun)

/-! ## The obligations: interrupts and reset -/

/-- Settles O52: the entry sequence with the vector address as a pattern of bits, or no effect but on the list of
events. -/
theorem interruptEntry : Obligations.InterruptEntry := by
  intro s es k hin
  refine ⟨fun hie hir hrun => ?_, fun hnot => ?_⟩
  · obtain ⟨hpc, hia, hccs, hir', hout, hkept⟩ := takeInterrupt_spec { s with inputs := es } k
    rw [← hpc, vectorAddress_eq] at hout
    refine ⟨_, step_of_interrupt hin hie hir hrun, ?_, hia, hccs, hir', rfl, hout,
      ((setInputs_kept s es).trans hkept).mono (by simp)⟩
    rw [hpc, vectorAddress_eq]
    exact dataAt_reads s .short _
  · exact (step_of_cons hin).trans (handle_interrupt_of_not_acknowledged k (not_acknowledges hnot))

/-- Settles O53: the return takes pc from IA and CC from CCS, where the entry put them, and no instruction writes CCS. -/
theorem returnRestoresInterruptedProgram : Obligations.ReturnRestoresInterruptedProgram := by
  intro s es k hin hie hir hrun
  obtain ⟨-, hia, hccs, hir', -, hkept⟩ := takeInterrupt_spec { s with inputs := es } k
  refine ⟨_, step_of_interrupt hin hie hir hrun, ?_, fun i u h => exec_same_of_unwritten (p := .ccs) h (by simp), ?_⟩
  · obtain ⟨u, hu, hpc, hcc, hclear, hret⟩ := rtir_completes hir'
    refine ⟨u, hu, hpc.trans hia, hcc.trans hccs, hclear, fun p hp => ?_⟩
    by_cases hrestored : p ∈ [.pc, .cc, .csIr]
    · simp only [List.mem_cons, List.not_mem_nil, or_false] at hrestored
      obtain rfl | rfl | rfl := hrestored
      · exact hpc.trans hia
      · exact hcc.trans hccs
      · exact hclear.trans hir.symm
    · have hall := ((setInputs_kept s es).trans hkept).trans hret
      refine hall p fun hmem => ?_
      simp only [List.mem_append, List.mem_cons] at hmem hrestored hp
      tauto
  · intro u hia' hccs' hir''
    obtain ⟨v, hv, hpc, hcc, hclear, -⟩ := rtir_completes hir''
    exact ⟨v, hv, hpc.trans (hia'.trans hia), hcc.trans (hccs'.trans hccs), hclear⟩

/-- Settles O56: the fields of the state after a reset, in which IE = 0 bars every request. -/
theorem resetLeavesDefinedState : Obligations.ResetLeavesDefinedState := by
  intro s es irn strq hin
  refine ⟨_, step_of_reset hin, rfl, rfl, rfl, rfl, rfl, rfl, rfl, ?_, rfl, fun k => ?_⟩
  · cases strq <;> simp [State.applyReset]
  · exact handle_interrupt_of_not_acknowledged k (not_acknowledges (.inl rfl))

/-- Settles O57: the fields of the state after reset; pc is the page number shifted past twelve zeros. -/
theorem resetStateValues : Obligations.ResetStateValues :=
  ⟨rfl, rfl, rfl, rfl, rfl, (append_zero_eq_shiftLeft Config.resetIrn 12).symm, rfl, rfl, rfl⟩

/-! ## The obligations: the memories -/

/-- Settles O58: a load of an instruction word keeps the form by `putInstr_wf`; every other step keeps both memories in
it by `step_keepsMemories`. -/
theorem stepKeepsInvariant : Obligations.StepKeepsInvariant := by
  rintro s t ⟨hd, hi⟩ h
  by_cases hload : ∃ a w es, s.inputs = .loadInstr a w :: es
  · obtain ⟨a, w, es, hin⟩ := hload
    obtain ⟨-, rfl⟩ := step_of_loadInstr h hin
    exact ⟨hd, putInstr_wf _ a w hi⟩
  · obtain ⟨hwf, himem⟩ := step_keepsMemories h fun a w es hin => hload ⟨a, w, es, hin⟩
    exact ⟨hwf hd, himem ▸ hi⟩

/-- Settles O59: both memories are empty after reset. -/
theorem resetHasInvariant : Obligations.ResetHasInvariant := reset_memories_wf

/-- Settles O60: `step_keepsMemories` where the host loads no word, and `putInstr` on the one cell where it does. -/
theorem onlyTheHostWritesInstructions : Obligations.OnlyTheHostWritesInstructions := by
  intro s t h
  refine ⟨fun hnext => (step_keepsMemories h hnext).imem, fun a w es hin => ?_⟩
  obtain ⟨hstop, rfl⟩ := step_of_loadInstr h hin
  exact ⟨hstop, by simp [putInstr_find], fun b hb => by simp [putInstr_find, hb]⟩

end Sys2Proof.Machine
end

section
/-! SUPPORT. The flags in integers (43_arithmetic.md R291 to R293) and the branches that read them (48_flow.md R346, R349):
what C, O, N and Z say of a sum, a difference and a comparison, on 16 and on 32 bits. -/

namespace Sys2Proof.Machine

/-! ## The flag rules as facts about numbers -/

theorem carryIn_toNat (s : State) : (carryIn s).toNat = s.cc.c.toNat := by
  cases h : s.cc.c <;> simp [carryIn, h]

theorem carryIn_toNat_le (s : State) : (carryIn s).toNat ≤ 1 := by
  rw [carryIn_toNat]
  exact Bool.toNat_le _

section
variable {x y c r : Word}

theorem toInt_eq_ite (x : Word) : x.toInt = if x.toNat < 32768 then (x.toNat : Int) else x.toNat - 65536 := by
  rw [BitVec.toInt_eq_toNat_cond]
  split <;> split <;> omega

/-- The carry rule of R291 is the carry out of bit 15, with a carry in of 0 or 1. -/
theorem carryRule_iff (hc : c.toNat ≤ 1) : carryRule x y (x + y + c) = true ↔ 65536 ≤ x.toNat + y.toNat + c.toNat := by
  have hx := x.isLt
  have hy := y.isLt
  simp only [carryRule, getLsbD_15, BitVec.toNat_add, Bool.or_eq_true, Bool.and_eq_true, Bool.not_eq_true',
    decide_eq_true_eq, decide_eq_false_iff_not]
  omega

theorem borrowRule_iff (hc : c.toNat ≤ 1) : borrowRule x y (x - y - c) = true ↔ x.toNat < y.toNat + c.toNat := by
  have hx := x.isLt
  have hy := y.isLt
  simp only [borrowRule, getLsbD_15, BitVec.toNat_sub, Bool.or_eq_true, Bool.and_eq_true, Bool.not_eq_true',
    decide_eq_true_eq, decide_eq_false_iff_not]
  omega

theorem addOverflowRule_iff (hc : c.toNat ≤ 1) :
    addOverflowRule x y (x + y + c) = true ↔ ¬ FitsSigned (x.toInt + y.toInt + c.toInt) := by
  have hx := x.isLt
  have hy := y.isLt
  simp only [addOverflowRule, getLsbD_15, BitVec.toNat_add, Bool.or_eq_true, Bool.and_eq_true, Bool.not_eq_true',
    decide_eq_true_eq, decide_eq_false_iff_not, FitsSigned, toInt_eq_ite]
  split <;> split <;> split <;> omega

theorem subOverflowRule_iff (hc : c.toNat ≤ 1) :
    subOverflowRule x y (x - y - c) = true ↔ ¬ FitsSigned (x.toInt - y.toInt - c.toInt) := by
  have hx := x.isLt
  have hy := y.isLt
  simp only [subOverflowRule, getLsbD_15, BitVec.toNat_sub, Bool.or_eq_true, Bool.and_eq_true, Bool.not_eq_true',
    decide_eq_true_eq, decide_eq_false_iff_not, FitsSigned, toInt_eq_ite]
  split <;> split <;> split <;> omega

theorem bit15_iff_negative (r : Word) : r.getLsbD 15 = true ↔ r.toInt < 0 := by
  rw [← msb_eq_bit15, BitVec.msb_eq_toInt, decide_eq_true_eq]

end

/-! ## What the flags of a result mean (R291, R292) -/

section
variable {i : Instr} {s : State} {rd : RegNum} {f old : Flags} {x y c r v : Word} {z : Prop}

theorem afterAdd_means (hc : c.toNat ≤ 1) (hr : r = x + y + c) : MeansSum (afterAdd x y r) x y c r True := by
  subst hr
  exact ⟨carryRule_iff hc, addOverflowRule_iff hc, bit15_iff_negative _, by simp [afterAdd]⟩

theorem afterSub_means (hc : c.toNat ≤ 1) (hr : r = x - y - c) : MeansDifference (afterSub x y r) x y c r True := by
  subst hr
  exact ⟨borrowRule_iff hc, subOverflowRule_iff hc, bit15_iff_negative _, by simp [afterSub]⟩

/-- The chained Z holds where it held before and the result is zero. -/
theorem chainedZ_means_sum (h : MeansSum f x y c r True) : MeansSum (chainedZ old f) x y c r (old.z = true) := by
  obtain ⟨hcarry, hover, hneg, hzero⟩ := h
  exact ⟨hcarry, hover, hneg, by simpa [chainedZ] using fun _ => hzero.trans (and_iff_right trivial)⟩

theorem chainedZ_means_difference (h : MeansDifference f x y c r True) :
    MeansDifference (chainedZ old f) x y c r (old.z = true) := by
  obtain ⟨hborrow, hover, hneg, hzero⟩ := h
  exact ⟨hborrow, hover, hneg, by simpa [chainedZ] using fun _ => hzero.trans (and_iff_right trivial)⟩

theorem PutsCC.meansSum (h : PutsCC i s rd v f) (hf : MeansSum f x y c v z) :
    Completes i s fun t => MeansSum t.cc x y c (t.reg rd) z := by
  obtain ⟨t, ht, rfl, rfl, -⟩ := h
  exact ⟨t, ht, hf⟩

theorem PutsCC.meansDifference (h : PutsCC i s rd v f) (hf : MeansDifference f x y c v z) :
    Completes i s fun t => MeansDifference t.cc x y c (t.reg rd) z := by
  obtain ⟨t, ht, rfl, rfl, -⟩ := h
  exact ⟨t, ht, hf⟩

theorem Tests.meansDifference (h : Tests i s f) (hf : MeansDifference f x y c r z) :
    Completes i s fun t => MeansDifference t.cc x y c r z := by
  obtain ⟨t, ht, rfl, -⟩ := h
  exact ⟨t, ht, hf⟩

end

/-! ## Two words as one number (R293) -/

section
variable (h l h' l' : Word)

theorem append_toNat : (h ++ l).toNat = h.toNat * 65536 + l.toNat := by
  rw [BitVec.toNat_append, ← Nat.shiftLeft_add_eq_or_of_lt l.isLt, Nat.shiftLeft_eq]

theorem append_toInt : (h ++ l).toInt = h.toInt * 65536 + l.toNat := by
  have hl := l.isLt
  have hh := h.isLt
  rw [BitVec.toInt_eq_toNat_cond, append_toNat, toInt_eq_ite]
  split <;> split <;> omega

theorem append_msb : (h ++ l).msb = h.msb := BitVec.msb_append

theorem append_eq_zero_iff : h ++ l = 0#32 ↔ l = 0#16 ∧ h = 0#16 := by
  simp only [← BitVec.toNat_inj, append_toNat, BitVec.toNat_ofNat]
  omega

variable {h l h' l'} {c : Word} {f : Flags}

/-- The signed result is the exact one where the exact one fits. -/
theorem toInt_add_eq_iff (hc : c.toNat ≤ 1) :
    (h + h' + c).toInt = h.toInt + h'.toInt + c.toInt ↔ FitsSigned (h.toInt + h'.toInt + c.toInt) := by
  have hh := h.isLt
  have hh' := h'.isLt
  simp only [FitsSigned, toInt_eq_ite, BitVec.toNat_add]
  split <;> split <;> split <;> split <;> omega

theorem toInt_sub_eq_iff (hc : c.toNat ≤ 1) :
    (h - h' - c).toInt = h.toInt - h'.toInt - c.toInt ↔ FitsSigned (h.toInt - h'.toInt - c.toInt) := by
  have hh := h.isLt
  have hh' := h'.isLt
  simp only [FitsSigned, toInt_eq_ite, BitVec.toNat_sub]
  split <;> split <;> split <;> split <;> omega

/-- The carry `c` out of the low words makes the sum of the high words that of the 32-bit numbers. -/
theorem append_add (hc : c.toNat = if 65536 ≤ l.toNat + l'.toNat then 1 else 0) :
    (h + h' + c) ++ (l + l') = (h ++ l) + (h' ++ l') := by
  have hl := l.isLt
  have hl' := l'.isLt
  apply BitVec.eq_of_toNat_eq
  simp only [append_toNat, BitVec.toNat_add]
  split at hc <;> omega

theorem append_sub (hc : c.toNat = if l.toNat < l'.toNat then 1 else 0) :
    (h - h' - c) ++ (l - l') = (h ++ l) - (h' ++ l') := by
  have hl := l.isLt
  have hl' := l'.isLt
  have hh := h.isLt
  have hh' := h'.isLt
  apply BitVec.eq_of_toNat_eq
  simp only [append_toNat, BitVec.toNat_sub]
  split at hc <;> omega

end

/-! ## The flags of two words (R293) -/

/-- What C says after the low words, as the carry into the high words. -/
theorem carryIn_toNat_of_iff {t : State} {p : Prop} [Decidable p] (h : t.cc.c = true ↔ p) :
    (carryIn t).toNat = if p then 1 else 0 := by
  by_cases hp : p
  · rw [carryIn_toNat, h.mpr hp, if_pos hp]
    rfl
  · rw [carryIn_toNat, Bool.eq_false_iff.mpr fun hc => hp (h.mp hc), if_neg hp]
    rfl

section
variable {h l h' l' c : Word} {f : Flags}

/-- The flags after the high words, with the carry of the low words in C and their zero in Z, describe the 32-bit sum. -/
theorem twoWordSum_flags (hc : c.toNat = if 65536 ≤ l.toNat + l'.toNat then 1 else 0)
    (hf : MeansSum f h h' c (h + h' + c) (l + l' = 0#16)) :
    (f.c = true ↔ 4294967296 ≤ (h ++ l).toNat + (h' ++ l').toNat) ∧ (f.z = true ↔ (h ++ l) + (h' ++ l') = 0#32) ∧
      f.n = ((h ++ l) + (h' ++ l')).msb ∧
      (f.o = true ↔ ((h ++ l) + (h' ++ l')).toInt ≠ (h ++ l).toInt + (h' ++ l').toInt) := by
  obtain ⟨hcarry, hover, hneg, hzero⟩ := hf
  have hl := l.isLt
  have hl' := l'.isLt
  have hc1 : c.toNat ≤ 1 := by split at hc <;> omega
  have hcInt : c.toInt = c.toNat := by rw [toInt_eq_ite, if_pos (by omega)]
  rw [← append_add hc]
  refine ⟨?_, hzero.trans (append_eq_zero_iff _ _).symm, ?_, ?_⟩
  · rw [hcarry, append_toNat, append_toNat]
    split at hc <;> omega
  · rw [append_msb, Bool.eq_iff_iff, hneg, BitVec.msb_eq_toInt, decide_eq_true_eq]
  · rw [hover, ← toInt_add_eq_iff hc1, hcInt, append_toInt, append_toInt, append_toInt, BitVec.toNat_add]
    split at hc <;> omega

/-- The same for the 32-bit difference. -/
theorem twoWordDifference_flags (hc : c.toNat = if l.toNat < l'.toNat then 1 else 0)
    (hf : MeansDifference f h h' c (h - h' - c) (l - l' = 0#16)) :
    (f.c = true ↔ (h ++ l).toNat < (h' ++ l').toNat) ∧ (f.z = true ↔ (h ++ l) - (h' ++ l') = 0#32) ∧
      f.n = ((h ++ l) - (h' ++ l')).msb ∧
      (f.o = true ↔ ((h ++ l) - (h' ++ l')).toInt ≠ (h ++ l).toInt - (h' ++ l').toInt) := by
  obtain ⟨hborrow, hover, hneg, hzero⟩ := hf
  have hl := l.isLt
  have hl' := l'.isLt
  have hc1 : c.toNat ≤ 1 := by split at hc <;> omega
  have hcInt : c.toInt = c.toNat := by rw [toInt_eq_ite, if_pos (by omega)]
  rw [← append_sub hc]
  refine ⟨?_, hzero.trans (append_eq_zero_iff _ _).symm, ?_, ?_⟩
  · rw [hborrow, append_toNat, append_toNat]
    split at hc <;> omega
  · rw [append_msb, Bool.eq_iff_iff, hneg, BitVec.msb_eq_toInt, decide_eq_true_eq]
  · rw [hover, ← toInt_sub_eq_iff hc1, hcInt, append_toInt, append_toInt, append_toInt, BitVec.toNat_sub]
    split at hc <;> omega

end

/-! ## Comparisons and the order of numbers (R349) -/

/-- The flags tell the order of `x` and `y`, unsigned and signed. -/
structure Orders {n : Nat} (f : Flags) (x y : BitVec n) : Prop where
  below : f.c = true ↔ x.toNat < y.toNat
  equal : f.z = true ↔ x = y
  less : f.n ≠ f.o ↔ x.toInt < y.toInt

/-- N and O differ where the exact difference is negative. -/
theorem MeansDifference.sign_ne_overflow_iff {f : Flags} {x y c : Word} {z : Prop} (hc : c.toNat ≤ 1)
    (hf : MeansDifference f x y c (x - y - c) z) : f.n ≠ f.o ↔ x.toInt - y.toInt - c.toInt < 0 := by
  obtain ⟨-, hover, hneg, -⟩ := hf
  have hx := x.isLt
  have hy := y.isLt
  have hne : f.n ≠ f.o ↔ ¬ (f.n = true ↔ f.o = true) := by rw [← Bool.eq_iff_iff]
  rw [hne, hover, hneg]
  simp only [FitsSigned, toInt_eq_ite, BitVec.toNat_sub]
  split <;> split <;> split <;> split <;> omega

theorem orders_of_meansDifference {f : Flags} {x y : Word} (hf : MeansDifference f x y 0#16 (x - y) True) :
    Orders f x y where
  below := hf.1
  equal := by
    obtain ⟨-, -, -, hzero⟩ := hf
    rw [hzero, true_and, BitVec.sub_eq_iff_eq_add, BitVec.zero_add]
  less := by
    rw [MeansDifference.sign_ne_overflow_iff (c := 0#16) (z := True) (by decide) (by simpa using hf)]
    simp

/-- After the low words and then the high words with the borrow, the flags tell the order of the 32-bit numbers. -/
theorem orders_of_twoWordDifference {f : Flags} {h l h' l' c : Word}
    (hc : c.toNat = if l.toNat < l'.toNat then 1 else 0)
    (hf : MeansDifference f h h' c (h - h' - c) (l - l' = 0#16)) : Orders f (h ++ l) (h' ++ l') where
  below := (twoWordDifference_flags hc hf).1
  equal := by
    obtain ⟨-, hzero, -⟩ := twoWordDifference_flags hc hf
    rw [hzero, BitVec.sub_eq_iff_eq_add, BitVec.zero_add]
  less := by
    have hl := l.isLt
    have hl' := l'.isLt
    have hc1 : c.toNat ≤ 1 := by split at hc <;> omega
    have hcInt : c.toInt = c.toNat := by rw [toInt_eq_ite, if_pos (by omega)]
    rw [MeansDifference.sign_ne_overflow_iff hc1 hf, hcInt, append_toInt, append_toInt]
    split at hc <;> omega

/-! ## The branches on combined flags (R362 to R367) -/

section
variable {s t : State} (io : BitVec 10) (sp : Bool)

theorem brls_isWordOf : IsWordOf (patB10 io sp 0b000 1) (.brls io sp) :=
  isWordOf_of_encode (Laws.EncodingMatchesTable.brls io sp) rfl (encB10_1101_eq_pat ..)

theorem brhi_isWordOf : IsWordOf (patB10 io sp 0b001 1) (.brhi io sp) :=
  isWordOf_of_encode (Laws.EncodingMatchesTable.brhi io sp) rfl (encB10_1101_eq_pat ..)

theorem brlo_isWordOf : IsWordOf (patB10 io sp 0b110 1) (.brlo io sp) :=
  isWordOf_of_encode (Laws.EncodingMatchesTable.brlo io sp) rfl (encB10_1101_eq_pat ..)

theorem brge_isWordOf : IsWordOf (patB10 io sp 0b011 1) (.brge io sp) :=
  isWordOf_of_encode (Laws.EncodingMatchesTable.brge io sp) rfl (encB10_1101_eq_pat ..)

theorem brle_isWordOf : IsWordOf (patB10 io sp 0b100 1) (.brle io sp) :=
  isWordOf_of_encode (Laws.EncodingMatchesTable.brle io sp) rfl (encB10_1101_eq_pat ..)

theorem brgt_isWordOf : IsWordOf (patB10 io sp 0b101 1) (.brgt io sp) :=
  isWordOf_of_encode (Laws.EncodingMatchesTable.brgt io sp) rfl (encB10_1101_eq_pat ..)

theorem brls_branches : Branches (.brls io sp) s (s.cc.c = true ∨ s.cc.z = true) io :=
  branches_of_branch rfl (by simp [condLS])

theorem brhi_branches : Branches (.brhi io sp) s (s.cc.c = false ∧ s.cc.z = false) io :=
  branches_of_branch rfl (by simp [condHI])

/-- `brlo` prints the exclusive or of N and O. -/
theorem condLO_iff (f : Flags) : condLO f = true ↔ f.n ≠ f.o := by
  cases hn : f.n <;> cases ho : f.o <;> simp [condLO, hn, ho]

theorem condGE_iff (f : Flags) : condGE f = true ↔ f.n = f.o := by
  cases hn : f.n <;> cases ho : f.o <;> simp [condGE, hn, ho]

theorem condLE_iff (f : Flags) : condLE f = true ↔ f.z = true ∨ f.n ≠ f.o := by
  rw [← condLO_iff, condLE, condLO, Bool.or_assoc, Bool.or_eq_true]

theorem condGT_iff (f : Flags) : condGT f = true ↔ f.z = false ∧ f.n = f.o := by
  rw [← condGE_iff, condGT, condGE, Bool.and_eq_true, Bool.not_eq_true']

theorem brlo_branches : Branches (.brlo io sp) s (s.cc.n ≠ s.cc.o) io := branches_of_branch rfl (condLO_iff _)

theorem brge_branches : Branches (.brge io sp) s (s.cc.n = s.cc.o) io := branches_of_branch rfl (condGE_iff _)

theorem brle_branches : Branches (.brle io sp) s (s.cc.z = true ∨ s.cc.n ≠ s.cc.o) io :=
  branches_of_branch rfl (condLE_iff _)

theorem brgt_branches : Branches (.brgt io sp) s (s.cc.z = false ∧ s.cc.n = s.cc.o) io :=
  branches_of_branch rfl (condGT_iff _)

variable {io sp}

theorem Branches.of_iff {i : Instr} {c c' : Prop} (h : Branches i s c io) (hc : c ↔ c') : Branches i s c' io :=
  propext hc ▸ h

/-- Flags that tell an order decide the ten branches of R349 as it. -/
theorem decidesBranches_of_orders {n : Nat} {x y : BitVec n} (h : Orders t.cc x y) : DecidesBranches t io sp x y := by
  obtain ⟨hbelow, hequal, hless⟩ := h
  have hnotBelow : t.cc.c = false ↔ ¬ x.toNat < y.toNat := by rw [← hbelow, Bool.not_eq_true]
  have hnotEqual : t.cc.z = false ↔ x ≠ y := by rw [Ne, ← hequal, Bool.not_eq_true]
  have hnotLess : t.cc.n = t.cc.o ↔ ¬ x.toInt < y.toInt := by rw [← hless, not_not]
  have hnat : x = y ↔ x.toNat = y.toNat := BitVec.toNat_inj.symm
  have hint : x = y ↔ x.toInt = y.toInt := BitVec.toInt_inj.symm
  refine ⟨(brcr_branches t io sp).of_iff hbelow, (brlo_branches io sp).of_iff hless,
    (brls_branches io sp).of_iff ?_, (brle_branches io sp).of_iff ?_, (brhi_branches io sp).of_iff ?_,
    (brgt_branches io sp).of_iff ?_, (brnc_branches t io sp).of_iff ?_, (brge_branches io sp).of_iff ?_,
    (brzr_branches t io sp).of_iff hequal, (brnz_branches t io sp).of_iff hnotEqual⟩
  · rw [hbelow, hequal, hnat]; omega
  · rw [hequal, hless, hint]; omega
  · rw [hnotBelow, hnotEqual, Ne, hnat]; omega
  · rw [hnotEqual, hnotLess, Ne, hint]; omega
  · rw [hnotBelow]; omega
  · rw [hnotLess]; omega

end

/-! ## The words of the obligations below -/

theorem addh_isWordOf (hi : BitVec 8) (rb : RegNum) : IsWordOf (patI8 hi 0b011 rb) (.addh hi rb) :=
  isWordOf_of_encode (Laws.EncodingMatchesTable.addh hi rb) rfl (encI8_eq_pat ..)

/-! ## The obligations -/

/-- Settles O14: the rules of R291 in integers for the four additions, the four subtractions and the four comparisons; the
forms without carry have 0 for it. -/
theorem flagsMeanCarryBorrowAndOverflow : Obligations.FlagsMeanCarryBorrowAndOverflow := by
  intro s rs0 rs1 rd rb c8 c10
  have h0 : (0#16).toNat ≤ 1 := by decide
  have hc := carryIn_toNat_le s
  refine ⟨?addtReg, ?addtImm, ?addc, ?adcf, ?subfReg, ?subfImm, ?subc, ?sbcf, ?compReg, ?compImm, ?cmpc, ?cpcf⟩
  case addtReg => exact (addtReg_putsCC s rs0 rs1 rd).meansSum (afterAdd_means h0 (by simp))
  case addtImm => exact (addtImm_putsCC s rb c8).meansSum (afterAdd_means h0 (by simp))
  case addc => exact (addc_putsCC s rs0 rs1 rd).meansSum (chainedZ_means_sum (afterAdd_means hc rfl))
  case adcf => exact (adcf_putsCC s rs0 rd).meansSum (chainedZ_means_sum (afterAdd_means hc (by simp)))
  case subfReg => exact (subfReg_putsCC s rs0 rs1 rd).meansDifference (afterSub_means h0 (by simp))
  case subfImm => exact (subfImm_putsCC s rb c8).meansDifference (afterSub_means h0 (by simp))
  case subc => exact (subc_putsCC s rs0 rs1 rd).meansDifference (chainedZ_means_difference (afterSub_means hc rfl))
  case sbcf => exact (sbcf_putsCC s rs0 rd).meansDifference (chainedZ_means_difference (afterSub_means hc (by simp)))
  case compReg => exact (compReg_tests s rs0 rs1).meansDifference (afterSub_means h0 (by simp))
  case compImm => exact (compImm_tests s rs1 c10).meansDifference (afterSub_means h0 (by simp))
  case cmpc => exact (cmpc_tests s rs0 rs1).meansDifference (chainedZ_means_difference (afterSub_means hc rfl))
  case cpcf => exact (cpcf_tests s rs0).meansDifference (chainedZ_means_difference (afterSub_means hc (by simp)))

/-- Settles O15: the low instruction leaves the carry in C and the zero of its result in Z, and the high one adds them to
its own; the low result stands where the high instruction does not write. -/
theorem twoWordAdditionAndSubtraction : Obligations.TwoWordAdditionAndSubtraction := by
  rintro s lo0 lo1 lo hi0 hi1 hi a b hne0 hne1 hne rfl rfl
  have h0 : (0#16).toNat ≤ 1 := by decide
  refine ⟨?add, ?sub⟩
  case add =>
    obtain ⟨t, hlow, hlo, hcc, -, hkept⟩ := addtReg_putsCC s lo0 lo1 lo
    have hlowFlags : MeansSum t.cc (s.reg lo1) (s.reg lo0) 0#16 (s.reg lo1 + s.reg lo0) True :=
      hcc ▸ afterAdd_means h0 (by simp)
    obtain ⟨hcarry, -, -, hzero⟩ := hlowFlags
    obtain ⟨u, hhigh, hhi, hcc', -, hkept'⟩ := addc_putsCC t hi0 hi1 hi
    have hsrc1 : t.reg hi1 = s.reg hi1 := hkept.reg (by simp [hne1.symm])
    have hsrc0 : t.reg hi0 = s.reg hi0 := hkept.reg (by simp [hne0.symm])
    have hlo' : u.reg lo = t.reg lo := hkept'.reg (by simp [hne])
    rw [hsrc1, hsrc0] at hhi hcc'
    have hc := carryIn_toNat_of_iff hcarry
    have hf : MeansSum u.cc (s.reg hi1) (s.reg hi0) (carryIn t) (s.reg hi1 + s.reg hi0 + carryIn t) (t.cc.z = true) :=
      hcc' ▸ chainedZ_means_sum (afterAdd_means (carryIn_toNat_le t) rfl)
    rw [hzero, true_and] at hf
    refine ⟨t, hlow, u, hhigh, ?_, twoWordSum_flags (by simpa using hc) hf⟩
    rw [hhi, hlo', hlo, append_add (by simpa using hc)]
  case sub =>
    obtain ⟨t, hlow, hlo, hcc, -, hkept⟩ := subfReg_putsCC s lo0 lo1 lo
    have hlowFlags : MeansDifference t.cc (s.reg lo1) (s.reg lo0) 0#16 (s.reg lo1 - s.reg lo0) True :=
      hcc ▸ afterSub_means h0 (by simp)
    obtain ⟨hborrow, -, -, hzero⟩ := hlowFlags
    obtain ⟨u, hhigh, hhi, hcc', -, hkept'⟩ := subc_putsCC t hi0 hi1 hi
    have hsrc1 : t.reg hi1 = s.reg hi1 := hkept.reg (by simp [hne1.symm])
    have hsrc0 : t.reg hi0 = s.reg hi0 := hkept.reg (by simp [hne0.symm])
    have hlo' : u.reg lo = t.reg lo := hkept'.reg (by simp [hne])
    rw [hsrc1, hsrc0] at hhi hcc'
    have hc := carryIn_toNat_of_iff hborrow
    have hf : MeansDifference u.cc (s.reg hi1) (s.reg hi0) (carryIn t) (s.reg hi1 - s.reg hi0 - carryIn t)
        (t.cc.z = true) := hcc' ▸ chainedZ_means_difference (afterSub_means (carryIn_toNat_le t) rfl)
    rw [hzero, true_and] at hf
    refine ⟨t, hlow, u, hhigh, ?_, twoWordDifference_flags (by simpa using hc) hf⟩
    rw [hhi, hlo', hlo, append_sub (by simpa using hc)]

/-- Settles O17: the row of the form, and its result by `finish`. -/
theorem addHighAddsToHighByte : Obligations.AddHighAddsToHighByte := fun s hi rb =>
  ⟨addh_isWordOf hi rb, append_zero_eq_shiftLeft hi 8 ▸ addh_puts s hi rb⟩

/-- Settles O44: the rows of the six branches, and their results by `branch` on the conditions of R362 to R367. -/
theorem branchesOnCombinedFlags : Obligations.BranchesOnCombinedFlags := fun _ io sp =>
  ⟨brls_isWordOf io sp, brls_branches io sp, brhi_isWordOf io sp, brhi_branches io sp, brlo_isWordOf io sp,
    brlo_branches io sp, brge_isWordOf io sp, brge_branches io sp, brle_isWordOf io sp, brle_branches io sp,
    brgt_isWordOf io sp, brgt_branches io sp⟩

/-- Settles O45: the flags after `comp` tell the order of the two words, and after `comp` and `cmpc` that of the two 32-bit
numbers. -/
theorem comparesDecideBranches : Obligations.ComparesDecideBranches := by
  intro s lo0 lo1 hi0 hi1
  obtain ⟨t, hlow, hcc, -, hkept⟩ := compReg_tests s lo0 lo1
  have hlowFlags : MeansDifference t.cc (s.reg lo1) (s.reg lo0) 0#16 (s.reg lo1 - s.reg lo0) True :=
    hcc ▸ afterSub_means (by decide) (by simp)
  refine ⟨⟨t, hlow, fun io sp => decidesBranches_of_orders (orders_of_meansDifference hlowFlags)⟩, t, hlow, ?_⟩
  obtain ⟨hborrow, -, -, hzero⟩ := hlowFlags
  obtain ⟨u, hhigh, hcc', -, -⟩ := cmpc_tests t hi0 hi1
  have hsrc1 : t.reg hi1 = s.reg hi1 := hkept.reg (by simp)
  have hsrc0 : t.reg hi0 = s.reg hi0 := hkept.reg (by simp)
  rw [hsrc1, hsrc0] at hcc'
  have hf : MeansDifference u.cc (s.reg hi1) (s.reg hi0) (carryIn t) (s.reg hi1 - s.reg hi0 - carryIn t)
      (t.cc.z = true) := hcc' ▸ chainedZ_means_difference (afterSub_means (carryIn_toNat_le t) rfl)
  rw [hzero, true_and] at hf
  have hc := carryIn_toNat_of_iff hborrow
  exact ⟨u, hhigh, fun io sp => decidesBranches_of_orders (orders_of_twoWordDifference (by simpa using hc) hf)⟩

end Sys2Proof.Machine
end

section
/-! SUPPORT. The special registers (10_state.md R46 to R54), `mlcu` (47_multiply.md R330), the debug ports (49_debug_misc.md
R380 to R382, 42_move.md R254), and the jumps through TA and IA (48_flow.md R340, R343). -/

namespace Sys2Proof.Machine

/-! ## The words -/

section
variable (rs rd : RegNum) (c8 : BitVec 8) (c10 : BitVec 10) (q : SRegNum)

theorem mfsr_isWordOf : IsWordOf (patR2 0b01010010 q rd) (.mfsr q rd) :=
  isWordOf_of_encode (Laws.EncodingMatchesTable.mfsr q rd) rfl (encR2_eq_pat ..)

theorem mtsrReg_isWordOf : IsWordOf (patR2 0b01010011 rs q) (.mtsrReg rs q) :=
  isWordOf_of_encode (Laws.EncodingMatchesTable.mtsrReg rs q) rfl (encR2_eq_pat ..)

theorem mtsrImm_isWordOf : IsWordOf (patI10 c10 0 q 0b1110) (.mtsrImm c10 q) :=
  isWordOf_of_encode (Laws.EncodingMatchesTable.mtsrImm c10 q) rfl (encI10_eq_pat ..)

theorem mfdp_isWordOf : IsWordOf (patR2 0b01010000 0 rd) (.mfdp rd) :=
  isWordOf_of_encode (Laws.EncodingMatchesTable.mfdp rd) rfl (encR2_eq_pat ..)

theorem jump_isWordOf : IsWordOf (patIMP 0b0000) .jump :=
  isWordOf_of_encode Laws.EncodingMatchesTable.jump rfl (encIMP_eq_pat ..)

theorem rtir_isWordOf : IsWordOf (patIMP 0b0011) .rtir :=
  isWordOf_of_encode Laws.EncodingMatchesTable.rtir rfl (encIMP_eq_pat ..)

theorem rspc_isWordOf : IsWordOf 0xC0075#20 .rspc :=
  isWordOf_of_encode Laws.EncodingMatchesTable.rspc rfl (by decide)

theorem svpc_isWordOf : IsWordOf 0xC0065#20 .svpc :=
  isWordOf_of_encode Laws.EncodingMatchesTable.svpc rfl (by decide)

theorem stop_isWordOf : IsWordOf 0xC0045#20 .stop :=
  isWordOf_of_encode Laws.EncodingMatchesTable.stop rfl (by decide)

/-- With its code given, the word of `mlcu` is read as `mlcu` (R139). -/
theorem decodeWith_mlcu (m : Config.MlcuFn3) : decodeWith (some m) (patI8 c8 m.code rd) = .ok (.mlcu c8 rd) := by
  rw [← encI8_eq_pat]
  exact decodeWith_of_encodeWith rfl

/-- Without it, no row of the table has either code. -/
theorem mlcu_apartFrom_rows (m : Config.MlcuFn3) :
    apartFrom 0x8070F#20 (encI8 0 m.code 0) ((rows Config.mlcuFn3).map fun r => (r.mask, r.bits)) = true := by
  cases m <;> decide

theorem reservedClass_encI8 (f : BitVec 3) : reservedClass (encI8 c8 f rd) = .constant8 := by
  have hlow4 : (encI8 c8 f rd).extractLsb' 0 4 = 0b0010#4 := by
    apply BitVec.eq_of_getLsbD_eq
    intro i hi
    simp only [encI8, placeC8, place, BitVec.getLsbD_or, BitVec.getLsbD_shiftLeft, BitVec.getLsbD_setWidth,
      BitVec.getLsbD_extractLsb']
    interval_cases i <;> simp
  have hlow2 : (encI8 c8 f rd).extractLsb' 0 2 = 0b10#2 := by
    have hsub : (encI8 c8 f rd).extractLsb' 0 2 = ((encI8 c8 f rd).extractLsb' 0 4).extractLsb' 0 2 := by
      ext i hi
      simp
    rw [hsub, hlow4]
    decide
  have htop : (encI8 c8 f rd).getLsbD 19 = true := by simp [encI8, place]
  simp [reservedClass, hlow2, hlow4, htop]

theorem decode_mlcu (m : Config.MlcuFn3) : decode (patI8 c8 m.code rd) = .error .constant8 := by
  rw [← encI8_eq_pat, ← reservedClass_encI8 rd c8 m.code]
  exact decodeWith_of_apartFrom (encI8_mask_8070F ..) (mlcu_apartFrom_rows m)

end

/-! ## The special registers as patterns of bits (R36 to R54) -/

theorem flagsWord_eq_append (f : Flags) :
    flagsWord f = 0#12 ++ BitVec.ofBool f.n ++ BitVec.ofBool f.z ++ BitVec.ofBool f.o ++ BitVec.ofBool f.c := by
  obtain ⟨n, z, o, c⟩ := f
  revert n z o c
  decide

theorem csWord_eq_append (s : State) :
    s.csWord = s.ivtp ++ 0#2 ++ BitVec.ofBool s.csIs ++ BitVec.ofBool s.csIe ++ BitVec.ofBool s.csIr := by
  apply BitVec.eq_of_getLsbD_eq
  intro i hi
  simp only [State.csWord, zext, BitVec.getLsbD_append, BitVec.getLsbD_or, BitVec.getLsbD_shiftLeft,
    BitVec.getLsbD_setWidth]
  interval_cases i <;> cases s.csIs <;> cases s.csIe <;> cases s.csIr <;> simp

theorem zext_lc_eq_append (s : State) : zext s.lc = 0#6 ++ s.lc := by
  rw [zext, BitVec.append_def, BitVec.shiftLeftZeroExtend_eq, BitVec.setWidth_zero, BitVec.zero_shiftLeft,
    BitVec.zero_or, BitVec.setWidth'_eq]

theorem idWord_eq_append : idWord = Config.idRev ++ Config.idIma ++ 1#4 ++ 7#4 := by
  apply BitVec.eq_of_getLsbD_eq
  intro i hi
  simp only [idWord, zext, BitVec.getLsbD_append, BitVec.getLsbD_or, BitVec.getLsbD_shiftLeft, BitVec.getLsbD_setWidth]
  interval_cases i <;> simp

theorem idRev_ne_zero : Config.idRev ≠ 0#4 := by
  have hlt := Config.idRevIndex.isLt
  simp only [Config.idRev, ne_eq, ← BitVec.toNat_inj, BitVec.toNat_ofNat]
  omega

/-! ## Moves from and to a special register (R252, R253) -/

section
variable {s : State} {n : SRegNum} {r : SReg} {v w : Word} {i : Instr} {rd : RegNum}

theorem mfsr_puts (hr : sregOf n = some r) (hv : s.readSR r = v) : Puts (.mfsr n rd) s rd v := by
  obtain ⟨r', hr', e⟩ | ⟨hnone, -⟩ := moveFromSR_cases s n rd
  · obtain rfl : r' = r := Option.some.inj (hr'.symm.trans hr)
    exact puts_of_finish e hv
  · cases hr.symm.trans hnone

theorem exec_mfsr_of_reserved (h : n ∉ [0#4, 1#4, 2#4, 4#4, 12#4, 13#4, 14#4, 15#4]) :
    exec (.mfsr n rd) s = .refused (.reservedSpecialRegister n) := by
  obtain ⟨hmem, -⟩ | ⟨-, hnone⟩ := sregOf_cases n
  · exact absurd hmem h
  · obtain ⟨r, hr, -⟩ | ⟨-, e⟩ := moveFromSR_cases s n rd
    · cases hnone.symm.trans hr
    · exact e

/-- `mtsr` into a special register writes it and goes on in sequence, and that is all. -/
theorem completes_of_moveToSR {P : State → Prop} (h : exec i s = s.moveToSR v n) (hr : sregOf n = some r)
    (hP : P (s.writeSR r v).advance) :
    Completes i s fun t => P t ∧ InSequence s t ∧ Kept s t (sregParts r ++ [.pc]) := by
  obtain ⟨r', hr', e⟩ | ⟨hnone, -⟩ := moveToSR_cases s v n
  · obtain rfl : r' = r := Option.some.inj (hr'.symm.trans hr)
    exact ⟨_, h.trans e, hP, inSequence_of_succ (by simp), (writeSR_kept s r' v).trans (advance_kept _)⟩
  · cases hr.symm.trans hnone

theorem refused_of_moveToSR (h : exec i s = s.moveToSR v n)
    (hn : n ∉ [0#4, 1#4, 2#4, 4#4, 12#4, 13#4, 14#4, 15#4]) : exec i s = .refused (.reservedSpecialRegister n) := by
  obtain ⟨hmem, -⟩ | ⟨-, hnone⟩ := sregOf_cases n
  · exact absurd hmem hn
  · obtain ⟨r, hr, -⟩ | ⟨-, e⟩ := moveToSR_cases s v n
    · cases hnone.symm.trans hr
    · exact h.trans e

end

/-! ## The results -/

section
variable (s : State) (rd : RegNum)

theorem mlcu_puts (c8 : BitVec 8) : Puts (.mlcu c8 rd) s rd (BitVec.ofNat 16 ((s.reg rd).toNat * c8.toNat)) := by
  have hc : (zext c8).toNat = c8.toNat := by
    rw [zext, BitVec.toNat_setWidth]
    omega
  exact puts_of_finish rfl (hc ▸ mul_eq_ofNat (s.reg rd) (zext c8))

variable {s}

theorem mfdp_puts {v : BitVec 20} (h : s.dbi = some v) : Puts (.mfdp rd) s rd (v.extractLsb' 0 16) := by
  obtain ⟨w, hw, e⟩ | ⟨hnone, -⟩ := dbgIn_cases s fun x => s.finish rd x
  · obtain rfl : w = v := Option.some.inj (hw.symm.trans h)
    exact puts_of_finish e rfl
  · cases h.symm.trans hnone

theorem rspc_goesTo {v : BitVec 20} (h : s.dbi = some v) : GoesTo .rspc s (v.extractLsb' 0 16) [] := by
  obtain ⟨w, hw, e⟩ | ⟨hnone, -⟩ := dbgIn_cases s fun x => s.setPc x
  · obtain rfl : w = v := Option.some.inj (hw.symm.trans h)
    exact goesTo_of_setPc e
  · cases h.symm.trans hnone

/-- An instruction that takes the debug input is refused where nothing drives it (D19). -/
theorem dbgIn_of_undriven (h : s.dbi = none) (next : Word → State) : s.dbgIn next = .refused .debugInputUndriven := by
  obtain ⟨w, hw, -⟩ | ⟨-, e⟩ := dbgIn_cases s next
  · cases h.symm.trans hw
  · exact e

end

/-! ## The obligations -/

/-- Settles O24: the product by `finish`; the word is read by the row of its code, and without it by none. -/
theorem multiplyConstant : Obligations.MultiplyConstant := fun s c8 rb =>
  ⟨mlcu_puts s rb c8, decodeWith_mlcu rb c8 .fn010, decodeWith_mlcu rb c8 .fn100, decode_mlcu rb c8 .fn010,
    decode_mlcu rb c8 .fn100⟩

/-- Settles O27: what each number names, as the pattern of its bits. -/
theorem specialRegistersRead : Obligations.SpecialRegistersRead := fun s q rd =>
  ⟨mfsr_isWordOf rd q, mfsr_puts (r := .cc) rfl (flagsWord_eq_append s.cc), mfsr_puts (r := .cs) rfl (csWord_eq_append s),
    mfsr_puts (r := .lc) rfl (zext_lc_eq_append s), mfsr_puts (r := .u0) rfl rfl, mfsr_puts (r := .sa) rfl rfl,
    mfsr_puts (r := .ia) rfl rfl, mfsr_puts (r := .ta) rfl rfl, mfsr_puts (r := .id) rfl idWord_eq_append, idRev_ne_zero,
    exec_mfsr_of_reserved⟩

/-- Settles O28: both forms are the move of their value to the register that the number names. -/
theorem specialRegistersWritten : Obligations.SpecialRegistersWritten := by
  refine fun s rs p c10 => ⟨mtsrReg_isWordOf rs p, mtsrImm_isWordOf c10 p, fun i v hi => ?_⟩
  have hexec : ∀ n : SRegNum, exec (i n) s = s.moveToSR v n := by
    obtain ⟨rfl, rfl⟩ | ⟨rfl, rfl⟩ := hi
    · exact fun _ => rfl
    · exact fun _ => rfl
  refine ⟨completes_of_moveToSR (hexec 0) rfl rfl, completes_of_moveToSR (hexec 1) rfl rfl,
    completes_of_moveToSR (hexec 2) rfl rfl, completes_of_moveToSR (hexec 4) rfl rfl,
    completes_of_moveToSR (hexec 12) rfl rfl, completes_of_moveToSR (hexec 13) rfl rfl,
    completes_of_moveToSR (hexec 14) rfl rfl, ?id, refused_of_moveToSR (hexec p)⟩
  case id =>
    obtain ⟨t, ht, -, hframe⟩ := completes_of_moveToSR (P := fun _ => True) (hexec 15) rfl trivial
    exact ⟨t, ht, hframe⟩

/-- Settles O30: the two instructions by what the port holds, and the event that drives it. -/
theorem debugInputReads : Obligations.DebugInputReads := fun s rd =>
  ⟨mfdp_isWordOf rd, rspc_isWordOf, fun _ h => ⟨mfdp_puts rd h, rspc_goesTo h⟩,
    fun h => ⟨dbgIn_of_undriven h _, dbgIn_of_undriven h _⟩, fun es v hin =>
    ⟨_, step_of_cons hin, rfl, rfl, ((setInputs_kept s es).trans (setDbi_kept _ v)).mono (by simp)⟩⟩

/-- Settles O40: the row of `jump`, and pc from TA. -/
theorem jumpGoesToTargetAddress : Obligations.JumpGoesToTargetAddress := fun _ => ⟨jump_isWordOf, goesTo_of_setPc rfl⟩

/-- Settles O41: the row of `rtir`, and its two cases by IR. -/
theorem returnFromInterrupt : Obligations.ReturnFromInterrupt := fun _ =>
  ⟨rtir_isWordOf, rtir_completes, exec_rtir_of_no_ir⟩

/-- Settles O48: `svpc` is `dbgOut` of pc and the advance, `stop` the run state and the advance. -/
theorem savePcAndStop : Obligations.SavePcAndStop := fun s =>
  ⟨svpc_isWordOf, ⟨_, rfl, rfl, rfl, inSequence_of_succ rfl, dbgOut_advance_kept s s.pc⟩, stop_isWordOf,
    ⟨_, rfl, rfl, inSequence_of_succ rfl, (setRun_kept s .stopped).trans (advance_kept _)⟩⟩

end Sys2Proof.Machine
end

section
/-! SUPPORT. The loads and stores (41_load_store.md) in their eight addressing modes (40_operands_addressing.md R183 to
R189): the addresses, the refused forms, the region maps, and what is read back after a store. -/

namespace Sys2Proof.Machine

/-! ## The addresses of the modes with one register -/

section
variable (s : State) (sz : Size) (an : AddrNum)

theorem edaOffset_eq (ofs : BitVec 8) : s.edaOffset ofs an = s.reg (1#1 ++ an) + ofs.signExtend 16 := by
  rw [State.edaOffset, addr_eq, sext]

theorem edaIndex_eq (rx : RegNum) : s.edaIndex sz rx an = s.reg (1#1 ++ an) + bytesOf sz * s.reg rx := by
  rw [State.edaIndex, addr_eq, sizeBytes_eq]

/-- A byte index is not scaled. -/
theorem edaIndex_byte_eq (rx : RegNum) : s.edaIndex .byte rx an = s.reg (1#1 ++ an) + s.reg rx := by
  rw [edaIndex_eq, bytesOf, BitVec.one_mul]

theorem edaPreDec_eq : s.edaPreDec sz an = s.reg (1#1 ++ an) - bytesOf sz := by
  rw [State.edaPreDec, addr_eq, sizeBytes_eq]

theorem postIncremented_eq : s.addr an + sizeBytes sz = s.reg (1#1 ++ an) + bytesOf sz := by
  rw [addr_eq, sizeBytes_eq]

theorem postUpdated_eq : s.postUpdated an = s.reg (1#1 ++ an) + s.u0.signExtend 16 := by
  rw [State.postUpdated, addr_eq, sext]

end

/-! ## The addresses of the selections (R181, R182) -/

/-- The k-th address of a selection with (An)+ and base An. -/
def addressUp (sz : Size) (base : Word) (k : Nat) : Word := base + bytesOf sz * BitVec.ofNat 16 k

/-- The k-th address of a selection with -(An) and base An. -/
def addressDown (sz : Size) (base : Word) (k : Nat) : Word := base - bytesOf sz * BitVec.ofNat 16 k - bytesOf sz

section
variable (s : State) (m : Config.Regions) {sz : Size} (an : AddrNum) {rgs : BitVec 10} {l : List SelReg}

/-- An (An)+ selection of loads as the transfer of the list that the flags select. -/
theorem loadSelUp_eq (h : Selects (ascending sz) rgs l) : s.loadSelUp m sz an rgs =
    s.transfer m sz an l ((List.range l.length).map (addressUp sz (s.reg (1#1 ++ an))))
      (loadsAt sz l (addressUp sz (s.reg (1#1 ++ an)))) (addressUp sz (s.reg (1#1 ++ an)) l.length) := by
  rw [State.loadSelUp, selUp_eq h, addr_eq, funext (loadUp_eq sz l (s.reg (1#1 ++ an)))]
  simp only [edasUp, span, sizeBytes_eq, addressUp]
  rfl

theorem storeSelUp_eq (h : Selects (ascending sz) rgs l) : s.storeSelUp m sz an rgs =
    s.transfer m sz an l ((List.range l.length).map (addressUp sz (s.reg (1#1 ++ an))))
      (storesAt sz l (addressUp sz (s.reg (1#1 ++ an)))) (addressUp sz (s.reg (1#1 ++ an)) l.length) := by
  rw [State.storeSelUp, selUp_eq h, addr_eq, funext (storeUp_eq sz l (s.reg (1#1 ++ an)))]
  simp only [edasUp, span, sizeBytes_eq, addressUp]
  rfl

theorem loadSelDown_eq (h : Selects (descending sz) rgs l) : s.loadSelDown m sz an rgs =
    s.transfer m sz an l ((List.range l.length).map (addressDown sz (s.reg (1#1 ++ an))))
      (loadsAt sz l (addressDown sz (s.reg (1#1 ++ an))))
      (s.reg (1#1 ++ an) - bytesOf sz * BitVec.ofNat 16 l.length) := by
  rw [State.loadSelDown, selDown_eq h, addr_eq, funext (loadDown_eq sz l (s.reg (1#1 ++ an)))]
  simp only [edasDown, span, sizeBytes_eq]
  rfl

theorem storeSelDown_eq (h : Selects (descending sz) rgs l) : s.storeSelDown m sz an rgs =
    s.transfer m sz an l ((List.range l.length).map (addressDown sz (s.reg (1#1 ++ an))))
      (storesAt sz l (addressDown sz (s.reg (1#1 ++ an))))
      (s.reg (1#1 ++ an) - bytesOf sz * BitVec.ofNat 16 l.length) := by
  rw [State.storeSelDown, selDown_eq h, addr_eq, funext (storeDown_eq sz l (s.reg (1#1 ++ an)))]
  simp only [edasDown, span, sizeBytes_eq]
  rfl

end

/-! ## The refused forms (R189, R190) -/

section
variable {s : State} {m : Config.Regions} {sz : Size} {an : AddrNum} {r : RegNum} {eda newA : Word} {l : List SelReg}
  {edas : List Word} {access : State → State} {rgs : BitVec 10}

theorem loadUpdate_of_overlap (h : r = 1#1 ++ an) :
    s.loadUpdate m sz eda an newA r = .refused .addressRegisterOverlap :=
  if_pos (h.trans (addrReg_eq an).symm)

theorem storePreDec_of_overlap {result : Result} (h : r = 1#1 ++ an) :
    (if r = addrReg an then .refused .addressRegisterOverlap else result) = .refused .addressRegisterOverlap :=
  if_pos (h.trans (addrReg_eq an).symm)

theorem storePreDec_of_apart {result : Result} (h : r ≠ 1#1 ++ an) :
    (if r = addrReg an then .refused .addressRegisterOverlap else result) = result :=
  if_neg ((addrReg_eq an).symm ▸ h)

theorem transfer_of_empty (h : l = []) : s.transfer m sz an l edas access newA = .refused .emptySelection := by
  obtain ⟨-, e⟩ | ⟨hl, -⟩ | ⟨hl, -⟩ := transfer_cases s m sz an l edas access newA
  · exact e
  · exact absurd h hl
  · exact absurd h hl

theorem transfer_of_overlap (h : SelReg.gpr (1#1 ++ an) ∈ l) :
    s.transfer m sz an l edas access newA = .refused .addressRegisterOverlap := by
  obtain ⟨hl, -⟩ | ⟨-, -, e⟩ | ⟨-, ha, -⟩ := transfer_cases s m sz an l edas access newA
  · exact absurd h (hl ▸ List.not_mem_nil)
  · exact e
  · exact absurd h ha

/-- An empty selection is refused in every form (R190). -/
theorem up_refused_of_empty (h : selUp sz rgs = []) :
    s.loadSelUp m sz an rgs = .refused .emptySelection ∧ s.storeSelUp m sz an rgs = .refused .emptySelection :=
  ⟨transfer_of_empty h, transfer_of_empty h⟩

theorem down_refused_of_empty (h : selDown sz rgs = []) :
    s.loadSelDown m sz an rgs = .refused .emptySelection ∧ s.storeSelDown m sz an rgs = .refused .emptySelection :=
  ⟨transfer_of_empty h, transfer_of_empty h⟩

/-- A selection that holds An is refused in every form (R189). -/
theorem up_refused_of_overlap (h : SelReg.gpr (1#1 ++ an) ∈ selUp sz rgs) :
    s.loadSelUp m sz an rgs = .refused .addressRegisterOverlap ∧
      s.storeSelUp m sz an rgs = .refused .addressRegisterOverlap :=
  ⟨transfer_of_overlap h, transfer_of_overlap h⟩

theorem down_refused_of_overlap (h : SelReg.gpr (1#1 ++ an) ∈ selDown sz rgs) :
    s.loadSelDown m sz an rgs = .refused .addressRegisterOverlap ∧
      s.storeSelDown m sz an rgs = .refused .addressRegisterOverlap :=
  ⟨transfer_of_overlap h, transfer_of_overlap h⟩

theorem selUp_zero (sz : Size) : selUp sz 0 = [] := by cases sz <;> decide

theorem selDown_zero (sz : Size) : selDown sz 0 = [] := by cases sz <;> decide

end

/-! ## The region maps (R94) -/

section
variable {s : State} {m : Config.Regions} {sz : Size} {an : AddrNum} {r : RegNum} {eda newA : Word} {q : Refusal}
  {result : Result}

theorem dataAccess_eq_default (h : InMemory m sz eda) :
    Memory.dataAccess m sz [eda] result = Memory.dataAccess Config.dmemRegions sz [eda] result := by
  rw [dataAccess_default, dataAccess_of_inMemory (by simpa using h)]

theorem dataAccess_refused (h : BarredBy m sz eda q) : Memory.dataAccess m sz [eda] result = .refused q :=
  dataAccess_of_barredBy (k := 0) rfl h (by simp)

/-- Where Rd is not An, an updating load is one data access. -/
theorem loadUpdate_of_apart (m : Config.Regions) (h : r ≠ 1#1 ++ an) : s.loadUpdate m sz eda an newA r =
    Memory.dataAccess m sz [eda]
      (.next ((((s.noteRead sz eda).setReg r (s.dataAt sz eda)).setReg (addrReg an) newA).advance)) :=
  if_neg ((addrReg_eq an).symm ▸ h)

end

/-! ## What is read after a store (R86 to R90) -/

section
variable {s : State} {a v w : Word}

theorem Reads.eq_append (h : Reads s .short a v) :
    v = s.readByte ((a &&& 0xFFFE#16) + 1#16) ++ s.readByte (a &&& 0xFFFE#16) := by
  have hlo := (s.readByte (a &&& 0xFFFE#16)).isLt
  apply BitVec.eq_of_toNat_eq
  rw [BitVec.toNat_append, ← Nat.shiftLeft_add_eq_or_of_lt hlo, Nat.shiftLeft_eq]
  have hv : v.toNat = _ := h
  omega

theorem Reads.eq_zero_append (h : Reads s .byte a v) : v = 0#8 ++ s.readByte a := by
  apply BitVec.eq_of_toNat_eq
  rw [BitVec.toNat_append, BitVec.toNat_ofNat, Nat.zero_mod, Nat.zero_shiftLeft, Nat.zero_or]
  exact h

theorem append_extractLsb'_bytes (v : Word) : v.extractLsb' 8 8 ++ v.extractLsb' 0 8 = v := by
  apply BitVec.eq_of_getLsbD_eq
  intro i hi
  simp only [BitVec.getLsbD_append, BitVec.getLsbD_extractLsb']
  interval_cases i <;> simp

/-- A short that memory holds is what a load reads. -/
theorem Holds.eq_of_reads (h : Holds s .short a w) (hv : Reads s .short a v) : v = w := by
  obtain ⟨hlo, hhi⟩ := h
  rw [hv.eq_append, hlo, hhi, append_extractLsb'_bytes]

/-- An access at the same address of the same memory reads the same. -/
theorem Reads.of_readByte {t : State} {sz : Size} (h : Reads s sz a v) (hb : ∀ x, t.readByte x = s.readByte x) :
    Reads t sz a v := by
  cases sz <;> simpa only [Reads, hb] using h

/-- n operands below a base: the one at place j from above is the one at place n - 1 - j from below. -/
theorem addressUp_of_addressDown (sz : Size) (base : Word) {n j : Nat} (hj : j < n) :
    addressUp sz (base - bytesOf sz * BitVec.ofNat 16 n) (n - 1 - j) = addressDown sz base j := by
  have hn : BitVec.ofNat 16 n = BitVec.ofNat 16 j + 1#16 + BitVec.ofNat 16 (n - 1 - j) := by
    rw [← BitVec.ofNat_add, ← BitVec.ofNat_add]
    congr 1
    omega
  rw [addressUp, addressDown, hn, BitVec.mul_add, BitVec.mul_add, BitVec.mul_one]
  generalize bytesOf sz * BitVec.ofNat 16 j = x
  generalize bytesOf sz * BitVec.ofNat 16 (n - 1 - j) = y
  generalize bytesOf sz = z
  bv_omega

/-- A direct address with bit 0 clear is even, and with bit 0 set it is the odd address above. -/
theorem signExtend_and_even {ea : BitVec 11} (h : ea.getLsbD 0 = false) :
    ea.signExtend 16 &&& 0xFFFE#16 = ea.signExtend 16 := by
  have h0 : ea[0] = false := by simpa using h
  apply BitVec.eq_of_getLsbD_eq
  intro i hi
  simp only [BitVec.getLsbD_and, BitVec.getLsbD_signExtend]
  interval_cases i <;> simp [h0]

theorem signExtend_or_one {ea : BitVec 11} (h : ea.getLsbD 0 = false) :
    (ea ||| 1#11).signExtend 16 = ea.signExtend 16 + 1#16 := by
  have hdisjoint : ea.signExtend 16 &&& 1#16 = 0#16 := by
    rw [← signExtend_and_even h, BitVec.and_assoc]
    exact BitVec.and_zero
  rw [BitVec.add_eq_or_of_and_eq_zero _ _ hdisjoint]
  apply BitVec.eq_of_getLsbD_eq
  intro i hi
  simp only [BitVec.getLsbD_or, BitVec.getLsbD_signExtend, BitVec.msb_or]
  interval_cases i <;> simp

end

/-! ## The obligations: one register -/

/-- Settles O31: each form is a load at the address of its mode. -/
theorem singleRegisterLoads : Obligations.SingleRegisterLoads := by
  rintro s ea ofs rx rd an base rfl
  exact ⟨loadsFrom_of_loadTo rfl rfl, loadsFrom_of_loadTo rfl rfl, loadsFrom_of_loadTo rfl (edaOffset_eq s an ofs),
    loadsFrom_of_loadTo rfl (edaOffset_eq s an ofs), loadsFrom_of_loadTo rfl (edaIndex_byte_eq s an rx),
    loadsFrom_of_loadTo rfl (edaIndex_eq s .short an rx), fun hne =>
    ⟨loadsUpdating_of_loadUpdate rfl hne (addr_eq s an) (postIncremented_eq s .byte an),
      loadsUpdating_of_loadUpdate rfl hne (addr_eq s an) (postIncremented_eq s .short an),
      loadsUpdating_of_loadUpdate rfl hne (edaPreDec_eq s .byte an) (edaPreDec_eq s .byte an),
      loadsUpdating_of_loadUpdate rfl hne (edaPreDec_eq s .short an) (edaPreDec_eq s .short an),
      loadsUpdating_of_loadUpdate rfl hne (addr_eq s an) (postUpdated_eq s an),
      loadsUpdating_of_loadUpdate rfl hne (addr_eq s an) (postUpdated_eq s an)⟩⟩

/-- Settles O32: each form is a store at the address of its mode; -(An) where Rs is not An. -/
theorem singleRegisterStores : Obligations.SingleRegisterStores := by
  rintro s ea ofs rx rs an base rfl
  exact ⟨storesTo_of_storeFrom rfl rfl, storesTo_of_storeFrom rfl rfl, storesTo_of_storeFrom rfl (edaOffset_eq s an ofs),
    storesTo_of_storeFrom rfl (edaOffset_eq s an ofs), storesTo_of_storeFrom rfl (edaIndex_byte_eq s an rx),
    storesTo_of_storeFrom rfl (edaIndex_eq s .short an rx),
    storesUpdating_of_storeUpdate rfl (addr_eq s an) (postIncremented_eq s .byte an),
    storesUpdating_of_storeUpdate rfl (addr_eq s an) (postIncremented_eq s .short an),
    storesUpdating_of_storeUpdate rfl (addr_eq s an) (postUpdated_eq s an),
    storesUpdating_of_storeUpdate rfl (addr_eq s an) (postUpdated_eq s an), fun hne =>
    ⟨storesUpdating_of_storeUpdate (storePreDec_of_apart hne) (edaPreDec_eq s .byte an) (edaPreDec_eq s .byte an),
      storesUpdating_of_storeUpdate (storePreDec_of_apart hne) (edaPreDec_eq s .short an) (edaPreDec_eq s .short an)⟩⟩

/-! ## The obligations: selections -/

/-- Settles O33: each form is the transfer of the selected list, a sequence of loads at the addresses of its mode. -/
theorem selectionLoads : Obligations.SelectionLoads := by
  rintro s an rgs sz l base hl ha rfl
  refine ⟨fun h => ?up, fun h => ?down⟩
  case up =>
    refine loadsSelection_of_transfer (Eq.trans ?_ (loadSelUp_eq s Config.dmemRegions an h)) rfl hl ha
      (Selects.nodup (.inl h))
    cases sz <;> rfl
  case down =>
    refine loadsSelection_of_transfer (Eq.trans ?_ (loadSelDown_eq s Config.dmemRegions an h)) rfl hl ha
      (Selects.nodup (.inr h))
    cases sz <;> rfl

/-- Settles O34: the same with stores, whose operands do not overlap. -/
theorem selectionStores : Obligations.SelectionStores := by
  rintro s an rgs sz l base hl ha rfl
  refine ⟨fun h => ?up, fun h => ?down⟩
  case up =>
    refine storesSelection_of_transfer (Eq.trans ?_ (storeSelUp_eq s Config.dmemRegions an h)) rfl hl ha
      (up_disjoint sz _ (Selects.length_le (.inl h)))
    cases sz <;> rfl
  case down =>
    refine storesSelection_of_transfer (Eq.trans ?_ (storeSelDown_eq s Config.dmemRegions an h)) rfl hl ha
      (down_disjoint sz _ (Selects.length_le (.inr h)))
    cases sz <;> rfl

/-- Settles O35: the two tests that a form makes before its accesses. -/
theorem overlappingTransfersAreRefused : Obligations.OverlappingTransfersAreRefused := by
  intro s an r hr
  obtain ⟨hloadUpByte, hstoreUpByte⟩ := up_refused_of_empty (s := s) (m := Config.dmemRegions) (an := an) (selUp_zero .byte)
  obtain ⟨hloadUpShort, hstoreUpShort⟩ := up_refused_of_empty (s := s) (m := Config.dmemRegions) (an := an) (selUp_zero .short)
  obtain ⟨hloadDownByte, hstoreDownByte⟩ := down_refused_of_empty (s := s) (m := Config.dmemRegions) (an := an) (selDown_zero .byte)
  obtain ⟨hloadDownShort, hstoreDownShort⟩ := down_refused_of_empty (s := s) (m := Config.dmemRegions) (an := an) (selDown_zero .short)
  refine ⟨loadUpdate_of_overlap hr, loadUpdate_of_overlap hr, loadUpdate_of_overlap hr, loadUpdate_of_overlap hr,
    loadUpdate_of_overlap hr, loadUpdate_of_overlap hr, storePreDec_of_overlap hr, storePreDec_of_overlap hr,
    hloadUpByte, hloadDownByte, hloadUpShort, hloadDownShort, hstoreUpByte, hstoreDownByte, hstoreUpShort,
    hstoreDownShort, fun rgs l hmem => ?_⟩
  subst hr
  exact ⟨fun h => up_refused_of_overlap (selUp_eq h ▸ hmem), fun h => up_refused_of_overlap (selUp_eq h ▸ hmem),
    fun h => down_refused_of_overlap (selDown_eq h ▸ hmem), fun h => down_refused_of_overlap (selDown_eq h ▸ hmem)⟩

/-- Settles O36: every form is one `dataAccess` at its addresses, which the map bounds. -/
theorem regionMapsBoundAccesses : Obligations.RegionMapsBoundAccesses := by
  refine ⟨kindAt_default, fun m a r => ⟨fun h => if_pos h, fun h => if_neg h⟩, fun s m sz an => ⟨?single, ?selection⟩⟩
  case single =>
    intro r eda newA hne
    have hload := fun m => loadUpdate_of_apart (s := s) (sz := sz) (eda := eda) (newA := newA) m hne
    refine ⟨fun h => ⟨dataAccess_eq_default h, dataAccess_eq_default h, ?_, dataAccess_eq_default h⟩,
      fun q h => ⟨dataAccess_refused h, dataAccess_refused h, (hload m).trans (dataAccess_refused h),
        dataAccess_refused h⟩⟩
    rw [hload, hload]
    exact dataAccess_eq_default h
  case selection =>
    rintro rgs l base hl ha rfl
    refine ⟨fun h => ⟨?_, ?_⟩, fun h => ⟨?_, ?_⟩⟩
    · rw [funext fun m => loadSelUp_eq s m an h]
      exact boundedBy_transfer hl ha
    · rw [funext fun m => storeSelUp_eq s m an h]
      exact boundedBy_transfer hl ha
    · rw [funext fun m => loadSelDown_eq s m an h]
      exact boundedBy_transfer hl ha
    · rw [funext fun m => storeSelDown_eq s m an h]
      exact boundedBy_transfer hl ha

/-! ## The obligations: what is read back -/

/-- Settles O37: the push leaves each register at its address below An, and the pop reads the addresses upward from where
the push left An. -/
theorem pushThenPopRestores : Obligations.PushThenPopRestores := by
  intro s u an pushed popped l hl ha hpush hpop
  obtain ⟨-, hdown⟩ := selectionStores s an pushed .short l _ hl ha rfl
  obtain ⟨t, hexec, hstored, han, -⟩ := hdown hpush
  refine ⟨t, hexec, fun hreg hmem => ?_⟩
  obtain ⟨hup, -⟩ := selectionLoads u an popped .short l.reverse _ (by simpa using hl) (by simpa using ha) rfl
  obtain ⟨v, hexec', hloaded, han', -⟩ := hup hpop
  rw [hreg, han] at hloaded han'
  refine ⟨v, hexec', fun r hr => ?_, ?_⟩
  · obtain ⟨j, hj⟩ := List.mem_iff_getElem?.mp hr
    have hjl : j < l.length := (List.getElem?_eq_some_iff.mp hj).1
    have hrev : l.reverse[l.length - 1 - j]? = some r := by
      rw [List.getElem?_reverse (by omega), ← hj]
      congr 1
      omega
    have hreads : Reads u .short (addressDown .short (s.reg (1#1 ++ an)) j) (v.sel r) :=
      addressUp_of_addressDown .short _ hjl ▸ hloaded _ r hrev
    have hholds : Holds t .short (addressDown .short (s.reg (1#1 ++ an)) j) (s.sel r) := hstored j r hj
    exact hholds.eq_of_reads (hreads.of_readByte fun x => (hmem x).symm)
  · rw [han', List.length_reverse, BitVec.sub_add_cancel]

/-- Settles O38: the bytes of the short at an even address are the bytes at it and above it. -/
theorem mixedSizeAccesses : Obligations.MixedSizeAccesses := by
  intro s rlo rhi rd ea hea
  have heven := signExtend_and_even hea
  have hodd := signExtend_or_one hea
  have hne : ea.signExtend 16 ≠ ea.signExtend 16 + 1#16 := by bv_omega
  refine ⟨?bytes, ?short⟩
  case bytes =>
    obtain ⟨t, hexec, ⟨hhi, -⟩, -, hkept⟩ := storesTo_of_storeFrom (i := .stbtDirect rhi (ea ||| 1#11)) (s := s) rfl rfl
    obtain ⟨u, hexec', ⟨hlo, -⟩, -, hkept'⟩ := storesTo_of_storeFrom (i := .stbtDirect rlo ea) (s := t) rfl rfl
    obtain ⟨v, hexec'', hreads, -⟩ := loadsFrom_of_loadTo (i := .ldshDirect ea rd) (s := u) rfl rfl
    refine ⟨t, hexec, u, hexec', v, hexec'', hreads.eq_append.trans ?_⟩
    have hsrc : t.reg rlo = s.reg rlo := hkept.reg (by simp [accessBytes])
    have hhi' : u.readByte (ea.signExtend 16 + 1#16) = t.readByte (ea.signExtend 16 + 1#16) :=
      hkept'.readByte (by simp [accessBytes, sext, hne.symm])
    rw [sext, heven, hhi', ← hodd]
    exact congrArg₂ _ hhi (hsrc ▸ hlo)
  case short =>
    obtain ⟨t, hexec, ⟨hlo, hhi, -⟩, -⟩ := storesTo_of_storeFrom (i := .stshDirect rlo ea) (s := s) rfl rfl
    rw [sext, heven] at hlo hhi
    obtain ⟨u, hload, hreads, -⟩ := loadsFrom_of_loadTo (i := .ldbtDirect ea rd) (s := t) rfl rfl
    obtain ⟨u', hload', hreads', -⟩ := loadsFrom_of_loadTo (i := .ldbtDirect (ea ||| 1#11) rd) (s := t) rfl rfl
    refine ⟨t, hexec, ⟨u, hload, hreads.eq_zero_append.trans ?_⟩, u', hload', hreads'.eq_zero_append.trans ?_⟩
    · rw [sext, hlo]
    · rw [sext, hodd, hhi]

end Sys2Proof.Machine
end
